-- ==== Sys2Proof/Word.lean ====
section
/-!
DEFINITION. The words of the PNGme chunk codec block: a byte (00_scope R11), the 32-bit word of RES, of a length field
and of a crc field (R11, 10_state R29), the 48-bit command word (30_encoding R88), and four bytes in wire order
(10_state R21). Only types and the plainest view of them; every computation on them is in files under Machine.
-/

namespace Sys2Proof

/-- A byte is 8 bits (00_scope R11). -/
abbrev Byte := BitVec 8

/-- A 32-bit unsigned number: RES, a length field, a crc field, the argument of a command (00_scope R11, 30_encoding R88). -/
abbrev Word := BitVec 32

/-- The command word (30_encoding R88). -/
abbrev CmdWord := BitVec 48

/-- Four bytes, `b0` at the lowest offset on the wire: a chunk type (10_state R21), a length or a crc field
(30_encoding R81). -/
structure Quad where
  b0 : Byte
  b1 : Byte
  b2 : Byte
  b3 : Byte
deriving DecidableEq, Repr

end Sys2Proof
end

