-- ==== Sys2Proof/Config.lean ====
section
/-!
DEFINITION. What an implementation fixes. The spec leaves three capacities open (00_scope R12, 92_eei_decisions D1)
and wants the checksum's parameters in one record (41_crc32 R140). There is no free value on this hardware: the
summary of 92_eei_decisions says that nothing else is open.
-/

namespace Sys2Proof

/-- The open capacities of 00_scope R12. A buffer capacity is a natural number or unbounded (`none`); MAX_CHUNKS is at
most 2^32 - 1, which its type says. -/
structure Params where
  /-- IBUF_CAP: how many bytes the input buffer can hold. -/
  ibufCap : Option Nat
  /-- OBUF_CAP: how many bytes the output buffer can hold. -/
  obufCap : Option Nat
  /-- MAX_CHUNKS: how many entries the chunk list can hold. -/
  maxChunks : BitVec 32
deriving DecidableEq, Repr

/-- The parameters of the checksum that the algorithm of 41_crc32 R141 uses, in the table of R140. -/
structure CrcParams where
  /-- The generator polynomial in reflected form. -/
  polyReflected : Word
  /-- The initial register value. -/
  init : Word
  /-- The final xor value. -/
  xorOut : Word
deriving DecidableEq, Repr

end Sys2Proof
end

