-- ==== Sys2Proof/Machine/State.lean ====
section
/-!
DEFINITION. The state of the block as plain data: everything of 10_state R36, and two fields of the model's own (the
capacities and the host's moves still to come). Also the two reasons a step of the model can stop.
-/

namespace Sys2Proof.Machine

/-- A chunk type value: exactly four raw bytes (10_state R21). That all four are letters is an invariant
(`ChunkType.alphabetic`, Flags.lean). -/
abbrev ChunkType := Quad

/-- A chunk value (10_state R22). Its length and crc are derived, never stored (log 9). -/
structure Chunk where
  type : ChunkType
  data : List Byte
deriving DecidableEq, Repr

/-- The five error kinds, a closed set (60_exceptions R240, R241). -/
inductive ErrorKind where
  | invalidChunkType
  | invalidCrc
  | truncatedInput
  | invalidSignature
  | chunkNotFound
deriving DecidableEq, Repr

/-- The five protocol faults (60_exceptions R261). -/
inductive FaultReason where
  | illegalCommand
  | noOperand
  | indexOutOfRange
  | lengthOverflow
  | capacityExceeded
deriving DecidableEq, Repr

/-- The value of STATUS.EC (10_state R31): the five code numbers that are never written have no constructor (93 U7). -/
inductive Code where
  | ok
  | error (e : ErrorKind)
  | fault (r : FaultReason)
deriving DecidableEq, Repr

/-- STATUS (10_state R31): the outcome code and the sticky fault flag. The reserved bits 6:4 always read as 0 and have no
storage (log 10); the 8-bit word the host reads is `statusWord` (HostPort.lean). -/
structure Status where
  ec : Code
  f : Bool
deriving DecidableEq, Repr

/-- A byte memory: (offset, byte) pairs. In canonical form (`Memory.wf`, Ops.lean) the offsets are 0, 1, ..., n - 1 in this
order, n being the length register (20_memory R50, R51). An unlisted offset has no value: it is not valid, and nothing reads it
(log 8). -/
structure Memory where
  cells : List Host.Cell
deriving DecidableEq, Repr

/-- A move of the host (00_scope R7, R10): the events besides the block's own work. -/
inductive HostEvent where
  /-- Issue a command word (30_encoding R88). -/
  | command (w : CmdWord)
  /-- Replace the whole input buffer (20_memory R52). -/
  | writeInput (bytes : List Byte)
  /-- Read the response and the output buffer (20_memory R53). -/
  | readResponse
  /-- Reset (70_reset R280). -/
  | reset
deriving DecidableEq, Repr

/-- The state of the block (10_state R36), with the model's own `params` and `port`. -/
structure State where
  /-- TR, the type register (10_state R24). -/
  tr : Option ChunkType
  /-- WC, the working chunk register (10_state R25). -/
  wc : Option Chunk
  /-- CL, the chunk list (10_state R27). -/
  cl : List Chunk
  /-- RES, the result register (10_state R29). -/
  res : Word
  /-- STATUS (10_state R31). -/
  status : Status
  /-- IBUF and, as its number of cells, ILEN (10_state R33). -/
  ibuf : Memory
  /-- OBUF and, as its number of cells, OLEN (10_state R33). -/
  obuf : Memory
  /-- MODEL'S OWN: the open capacities (00_scope R12), never changed (10_state R34; log 3). -/
  params : Params
  /-- MODEL'S OWN: the host's moves still to come, first one first (log 1). -/
  port : List HostEvent
deriving DecidableEq, Repr

/-- Why a step of the model can stop. The block's own faults are not here: the spec gives their effect, so they are next
states (60_exceptions R260; log 11). -/
inductive Fault where
  /-- Raised by a host write longer than IBUF_CAP, a move the host does not have (20_memory R52). Safe: the model stops
  where the spec has no run (log 4). -/
  | hostWriteTooLong
deriving DecidableEq, Repr

/-- Why an instruction can have no meaning. -/
inductive Refusal where
  /-- Raised by an arm of exec that has no meaning yet; none is left. Safe: the model stops. -/
  | notModelled (mnemonic : String)
deriving DecidableEq, Repr

/-- What a step or a meaning answers. -/
abbrev Result := Host.Outcome State Fault Refusal

/-- The state right after reset (10_state R36, 70_reset R280), with the capacities the spec recommends (00_scope R12) and no move of the host
waiting: the last two fields are DESIGN CHOICE (logs 1 and 3). -/
def State.reset : State where
  tr := none
  wc := none
  cl := []
  res := 0#32
  status := ⟨.ok, false⟩
  ibuf := ⟨[]⟩
  obuf := ⟨[]⟩
  params := ⟨none, none, 0xFFFFFFFF#32⟩
  port := []

end Sys2Proof.Machine
end

