-- ==== Sys2Proof/Machine/Ops.lean ====
section
/-!
DEFINITION. The named operations on byte strings, the two byte memories and the registers, and the three ways a command
ends (00_scope R15): a response, an error, a protocol fault. Every write of a register goes through a setter of this file.
-/

namespace Sys2Proof.Machine

/-! ### Byte strings and big-endian numbers (00_scope R14, R15; 20_memory R59, R65) -/

/-- The four bytes as a byte string, in wire order. -/
def quadBytes (q : Quad) : List Byte := [q.b0, q.b1, q.b2, q.b3]

/-- `be32` of 00_scope R15: the first byte is the most significant. -/
def be32 (q : Quad) : Word := q.b0 ++ (q.b1 ++ (q.b2 ++ q.b3))

/-- `to_be32` of 00_scope R15. -/
def toBe32 (v : Word) : Quad where
  b0 := v.extractLsb' 24 8
  b1 := v.extractLsb' 16 8
  b2 := v.extractLsb' 8 8
  b3 := v.extractLsb' 0 8

/-- `B[off .. off + n)` (00_scope R14). -/
def slice (B : List Byte) (off n : Nat) : List Byte := (B.drop off).take n

/-- A bounds-checked read of the 4-byte field at `off` (20_memory R54, R55): `none` where the string ends before `off + 4`. -/
def quadAt (B : List Byte) (off : Nat) : Option Quad :=
  match slice B off 4 with
  | [b0, b1, b2, b3] => some ⟨b0, b1, b2, b3⟩
  | _ => none

/-! ### The byte memories (20_memory R50 to R58) -/

/-- The length register of a memory: ILEN or OLEN (10_state R33; log 8). -/
def Memory.length (m : Memory) : Nat := m.cells.length

/-- The byte at an offset; `none` where the offset is not valid (20_memory R51). -/
def Memory.read (m : Memory) (a : Nat) : Option Byte := m.cells.lookup a

/-- The whole content `[0 .. length)` as a byte string. -/
def Memory.bytes (m : Memory) : List Byte := m.cells.map Prod.snd

/-- The cells holding `B` from offset `a` on. -/
def cellsFrom (a : Nat) : List Byte → List Host.Cell
  | [] => []
  | b :: B => (a, b) :: cellsFrom (a + 1) B

/-- The memory whose content is exactly `B`, with length `|B|` (20_memory R52, R57). -/
def Memory.ofBytes (B : List Byte) : Memory := ⟨cellsFrom 0 B⟩

/-- The canonical form: the listed offsets are `0, 1, ..., length - 1`, in this order. So they rise strictly, and an offset is listed iff
it is valid (20_memory R51). -/
def Memory.wf (m : Memory) : Bool := m.cells.map Prod.fst == List.range m.cells.length

/-- `MemRead` of 00_scope R15. Its callers have `off + n <= length` (20_memory R55). -/
def memRead (m : Memory) (off n : Nat) : List Byte := slice m.bytes off n

/-- A length is within a capacity; `none` is unbounded (00_scope R12). -/
def fits (cap : Option Nat) (n : Nat) : Bool :=
  match cap with
  | none => true
  | some c => decide (n ≤ c)

/-! ### The registers -/

def setTr (s : State) (v : Option ChunkType) : State := { s with tr := v }
def setWc (s : State) (v : Option Chunk) : State := { s with wc := v }
def setCl (s : State) (v : List Chunk) : State := { s with cl := v }
def setRes (s : State) (v : Word) : State := { s with res := v }
def setStatus (s : State) (v : Status) : State := { s with status := v }
def setIbuf (s : State) (v : Memory) : State := { s with ibuf := v }
def setObuf (s : State) (v : Memory) : State := { s with obuf := v }
def setPort (s : State) (v : List HostEvent) : State := { s with port := v }

/-- `STATUS.EC <- code`: only the outcome code changes (10_state R31). -/
def setEc (s : State) (c : Code) : State := setStatus s ⟨c, s.status.f⟩

/-! ### How a command ends (00_scope R15) -/

/-- A command is refused while STATUS.F = 1: no state changes at all (60_exceptions R260). Otherwise it does `k`. -/
def accept (s : State) (k : Result) : Result :=
  if s.status.f then .next s else k

/-- `RES <- v; respond(OK)` (10_state R29, 60_exceptions R241). -/
def respond (s : State) (v : Word) : Result := .next (setEc (setRes s v) .ok)

/-- `raise e` (60_exceptions R250): the code, RES = 0, and nothing else. There is nothing to return from (R251). -/
def raiseError (s : State) (e : ErrorKind) : Result := .next (setEc (setRes s 0#32) (.error e))

/-- `fault r` (60_exceptions R260): F = 1, the code, and nothing else. Only a reset returns from it. -/
def takeFault (s : State) (r : FaultReason) : Result := .next (setStatus s ⟨.fault r, true⟩)

/-- `OBUF <- B; RES <- v; respond(OK)`, after the capacity check (20_memory R57, 60_exceptions R262). -/
def emit (s : State) (B : List Byte) (v : Word) : Result :=
  if fits s.params.obufCap B.length then respond (setObuf s (Memory.ofBytes B)) v
  else takeFault s .capacityExceeded

/-- A truth value as RES shows it (10_state R29). -/
def boolWord (b : Bool) : Word := if b then 1#32 else 0#32

end Sys2Proof.Machine
end

