-- ==== Sys2Proof/Machine/Flags.lean ====
section
/-!
DEFINITION. The letter test and the four flags of a chunk type (30_encoding R82, 40_chunk_type R110 to R120). The block has no other
flag but STATUS.F, and no command has a flag side effect (10_state R32): these are functions of the four type bytes.
-/

namespace Sys2Proof.Machine

/-- `alpha` of 40_chunk_type R110: an ASCII letter. -/
def alpha (b : Byte) : Bool := (0x41#8 ≤ b && b ≤ 0x5A#8) || (0x61#8 ≤ b && b ≤ 0x7A#8)

/-- All four bytes are letters (10_state R21). -/
def ChunkType.alphabetic (t : ChunkType) : Bool := alpha t.b0 && alpha t.b1 && alpha t.b2 && alpha t.b3

/-- The flag bit of a type byte: bit 5, weight 0x20 (00_scope R13, 30_encoding R82). -/
def caseBit (b : Byte) : Bool := (b &&& 0x20#8) != 0#8

/-- `ct_is_critical`: bit 5 of byte 0 is clear (40_chunk_type R116). -/
def ctIsCritical (t : ChunkType) : Bool := !caseBit t.b0

/-- `ct_is_public`: bit 5 of byte 1 is clear (40_chunk_type R117). -/
def ctIsPublic (t : ChunkType) : Bool := !caseBit t.b1

/-- `ct_is_reserved_bit_valid`: bit 5 of byte 2 is clear (40_chunk_type R118). -/
def ctIsReservedBitValid (t : ChunkType) : Bool := !caseBit t.b2

/-- `ct_is_safe_to_copy`: bit 5 of byte 3 is SET, the opposite polarity (40_chunk_type R119, 90_conflicts C2). -/
def ctIsSafeToCopy (t : ChunkType) : Bool := caseBit t.b3

/-- `ct_is_valid`: all letters and the reserved bit valid (40_chunk_type R120, 90_conflicts C6). -/
def ctIsValid (t : ChunkType) : Bool := t.alphabetic && ctIsReservedBitValid t

/-- `ct_parse` of 40_chunk_type R111. -/
def ctParse (t : Quad) : Except ErrorKind ChunkType :=
  if ChunkType.alphabetic t then .ok t else .error .invalidChunkType

/-- `ct_parse_str` of 40_chunk_type R111: exactly four bytes, all letters. -/
def ctParseStr (B : List Byte) : Except ErrorKind ChunkType :=
  match B with
  | [b0, b1, b2, b3] => ctParse ⟨b0, b1, b2, b3⟩
  | _ => .error .invalidChunkType

/-- Equality of chunk types on the raw four bytes (40_chunk_type R121). -/
def ctEq (a b : ChunkType) : Bool := a.b0 == b.b0 && a.b1 == b.b1 && a.b2 == b.b2 && a.b3 == b.b3

/-- The order of chunk types: lexicographic on the four bytes as unsigned numbers (40_chunk_type R121). No command exposes it. -/
def ctLt (a b : ChunkType) : Bool :=
  a.b0 < b.b0 || (a.b0 == b.b0 && (a.b1 < b.b1 || (a.b1 == b.b1 &&
    (a.b2 < b.b2 || (a.b2 == b.b2 && a.b3 < b.b3)))))

end Sys2Proof.Machine
end

