-- ==== Sys2Proof/Syntax.lean ====
section
/-!
DEFINITION. The commands of the block: one constructor of Instr per row of the opcode map (30_encoding R90), the three
formats (R89) and the four fields of a command word (R88).
-/

namespace Sys2Proof

/-- The subject of a format-S command (30_encoding R88, R89). -/
inductive Subject where
  /-- `s = 0`: the working chunk WC; `arg` is ignored. -/
  | wc
  /-- `s = 1`: the list entry CL[arg]. -/
  | entry
deriving DecidableEq, Repr

/-- The three formats of a command word (30_encoding R89). -/
inductive Format where
  | n
  | t
  | s
deriving DecidableEq, Repr

/-- The four fields of a command word (30_encoding R88). -/
structure Fields where
  /-- Bits 7:0, the opcode. -/
  op : BitVec 8
  /-- Bit 8, the subject select. -/
  s : Bool
  /-- Bits 15:9, reserved. -/
  rsv : BitVec 7
  /-- Bits 47:16, the argument. -/
  arg : Word
deriving DecidableEq, Repr

/-- The 25 commands (30_encoding R90). A format-S command keeps `arg` for both subjects: with the working chunk any value is
accepted and has no effect (R89). -/
inductive Instr where
  /-- CT.PARSE, format T: `arg` packs the four type bytes. -/
  | ctParse (arg : Word)
  /-- CT.PARSESTR. -/
  | ctParsestr
  /-- CT.BYTES. -/
  | ctBytes
  /-- CT.TOSTR. -/
  | ctTostr
  /-- CT.ISCRIT. -/
  | ctIscrit
  /-- CT.ISPUB. -/
  | ctIspub
  /-- CT.ISRSV. -/
  | ctIsrsv
  /-- CT.ISSAFE. -/
  | ctIssafe
  /-- CT.ISVALID. -/
  | ctIsvalid
  /-- CRC.CALC. -/
  | crcCalc
  /-- CH.NEW. -/
  | chNew
  /-- CH.PARSE. -/
  | chParse
  /-- CH.LEN. -/
  | chLen (sel : Subject) (arg : Word)
  /-- CH.TYPE. -/
  | chType (sel : Subject) (arg : Word)
  /-- CH.DATA. -/
  | chData (sel : Subject) (arg : Word)
  /-- CH.CRC. -/
  | chCrc (sel : Subject) (arg : Word)
  /-- CH.DATASTR. -/
  | chDatastr (sel : Subject) (arg : Word)
  /-- CH.BYTES. -/
  | chBytes (sel : Subject) (arg : Word)
  /-- CO.PARSE. -/
  | coParse
  /-- CO.CLEAR. -/
  | coClear
  /-- CO.APPEND. -/
  | coAppend
  /-- CO.REMOVE. -/
  | coRemove
  /-- CO.FIND. -/
  | coFind
  /-- CO.COUNT. -/
  | coCount
  /-- CO.BYTES. -/
  | coBytes
deriving DecidableEq, Repr

end Sys2Proof
end

