-- ==== Sys2Proof/Machine/Operands.lean ====
section
/-!
DEFINITION. Where a command's operands come from: TR, WC, the subject of a format-S command, and the input buffer. Reading an
empty register is a fault, never a value (10_state R26).
-/

namespace Sys2Proof.Machine

/-- The command reads TR (10_state R24, R26). -/
def withType (s : State) (k : ChunkType → Result) : Result :=
  match s.tr with
  | none => takeFault s .noOperand
  | some t => k t

/-- The command reads WC (10_state R25, R26). -/
def withWorkingChunk (s : State) (k : Chunk → Result) : Result :=
  match s.wc with
  | none => takeFault s .noOperand
  | some c => k c

/-- `subject(s, arg)` of 30_encoding R89. -/
def subject (sel : Subject) (arg : Word) (s : State) : Except FaultReason Chunk :=
  match sel with
  | .wc =>
    match s.wc with
    | none => .error .noOperand
    | some c => .ok c
  | .entry =>
    match s.cl[arg.toNat]? with
    | none => .error .indexOutOfRange
    | some c => .ok c

/-- A format-S command reads its subject (30_encoding R89). -/
def withSubject (sel : Subject) (arg : Word) (s : State) (k : Chunk → Result) : Result :=
  match subject sel arg s with
  | .error r => takeFault s r
  | .ok c => k c

/-- The byte string `IBUF[0 .. ILEN)`: a payload, a record, a stream, or a string operand (20_memory R51, 30_encoding R87). -/
def inputBytes (s : State) : List Byte := memRead s.ibuf 0 s.ibuf.length

end Sys2Proof.Machine
end

