-- ==== Sys2Proof/Machine/ChunkTypeUnit.lean ====
section
/-!
DEFINITION. The chunk-type unit (40_chunk_type): the two commands that construct a type in TR and the seven that read it.
-/

namespace Sys2Proof.Machine

/-- End of a constructing command: the new type goes to TR, or the error leaves TR as it was (40_chunk_type R112, R113). -/
def constructType (s : State) (r : Except ErrorKind ChunkType) : Result :=
  match r with
  | .error e => raiseError s e
  | .ok t => respond (setTr s (some t)) 0#32

/-- A predicate of the type in TR, as 0 or 1 in RES (40_chunk_type R116 to R120). -/
def queryType (s : State) (p : ChunkType → Bool) : Result :=
  accept s (withType s fun t => respond s (boolWord (p t)))

/-- CT.PARSE (40_chunk_type R112). -/
def execCtParse (arg : Word) (s : State) : Result := accept s (constructType s (ctParse (toBe32 arg)))

/-- CT.PARSESTR (40_chunk_type R113). -/
def execCtParsestr (s : State) : Result := accept s (constructType s (ctParseStr (inputBytes s)))

/-- CT.BYTES (40_chunk_type R114). -/
def execCtBytes (s : State) : Result := accept s (withType s fun t => respond s (be32 t))

/-- CT.TOSTR (40_chunk_type R115). The capacity check is that of 20_memory R57 (log 5). -/
def execCtTostr (s : State) : Result := accept s (withType s fun t => emit s (quadBytes t) 0#32)

/-- CT.ISCRIT (40_chunk_type R116). -/
def execCtIscrit (s : State) : Result := queryType s ctIsCritical

/-- CT.ISPUB (40_chunk_type R117). -/
def execCtIspub (s : State) : Result := queryType s ctIsPublic

/-- CT.ISRSV (40_chunk_type R118). -/
def execCtIsrsv (s : State) : Result := queryType s ctIsReservedBitValid

/-- CT.ISSAFE (40_chunk_type R119). -/
def execCtIssafe (s : State) : Result := queryType s ctIsSafeToCopy

/-- CT.ISVALID (40_chunk_type R120). -/
def execCtIsvalid (s : State) : Result := queryType s ctIsValid

end Sys2Proof.Machine
end

