-- ==== Sys2Proof/Machine/RecordUnit.lean ====
section
/-!
DEFINITION. The record codec unit (42_chunk_record): building, serializing and parsing a chunk record, and the eight CH commands.
-/

namespace Sys2Proof.Machine

/-- The greatest payload length, 2^32 - 1 (10_state R22, 42_chunk_record R163). -/
abbrev maxPayload : Nat := 0xFFFFFFFF

/-- What every chunk value meets: its type is alphabetic and its payload is not too long (10_state R21, R22). -/
def Chunk.ok (c : Chunk) : Bool := ChunkType.alphabetic c.type && decide (c.data.length ≤ maxPayload)

/-- `chunk_new` (42_chunk_record R160). -/
def chunkNew (t : ChunkType) (d : List Byte) : Chunk := ⟨t, d⟩

/-- The derived attribute `length` (10_state R22). -/
def chunkLength (c : Chunk) : Nat := c.data.length

/-- The derived attribute `crc`, over the type bytes and then the payload (10_state R22, 41_crc32 R144). -/
def chunkCrc (c : Chunk) : Word := crc32 (quadBytes c.type ++ c.data)

/-- `chunk_as_bytes` (42_chunk_record R161). -/
def chunkAsBytes (c : Chunk) : List Byte :=
  quadBytes (toBe32 (BitVec.ofNat 32 (chunkLength c))) ++ quadBytes c.type ++ c.data ++ quadBytes (toBe32 (chunkCrc c))

/-- `chunk_parse` (42_chunk_record R164): the chunk and how many bytes were consumed, or one error, with the priority of R165. The bounds
arithmetic is on natural numbers (R168); bytes after the record are not examined (R167). -/
def chunkParse (B : List Byte) : Except ErrorKind (Chunk × Nat) :=
  match quadAt B 0 with
  | none => .error .truncatedInput
  | some len =>
    if B.length < 12 + (be32 len).toNat then .error .truncatedInput
    else
      match quadAt B 4, quadAt B (8 + (be32 len).toNat) with
      | some t, some crc =>
        if !ChunkType.alphabetic t then .error .invalidChunkType
        else if crc32 (quadBytes t ++ slice B 8 (be32 len).toNat) ≠ be32 crc then .error .invalidCrc
        else .ok (⟨t, slice B 8 (be32 len).toNat⟩, 12 + (be32 len).toNat)
      | _, _ => .error .truncatedInput

/-- `data_as_string` (42_chunk_record R176): the code points, one per payload byte. -/
def dataAsString (d : List Byte) : List Nat := d.map BitVec.toNat

/-- `utf8` of 42_chunk_record R176, for a code point up to 255 (93 G3; log 7). -/
def utf8 (cp : Nat) : List Byte :=
  if cp < 0x80 then [BitVec.ofNat 8 cp]
  else [BitVec.ofNat 8 (0xC0 + (cp >>> 6)), BitVec.ofNat 8 (0x80 + (cp &&& 0x3F))]

/-- The bytes that carry the string of a payload to the host (30_encoding R87, 42_chunk_record R176). -/
def dataStringBytes (d : List Byte) : List Byte := (dataAsString d).flatMap utf8

/-- CH.NEW (42_chunk_record R162, R163). -/
def execChNew (s : State) : Result :=
  accept s (withType s fun t =>
    if s.ibuf.length > maxPayload then takeFault s .lengthOverflow
    else respond (setWc s (some (chunkNew t (inputBytes s)))) 0#32)

/-- CH.PARSE (42_chunk_record R166). -/
def execChParse (s : State) : Result :=
  accept s (match chunkParse (inputBytes s) with
    | .error e => raiseError s e
    | .ok r => respond (setWc s (some r.1)) 0#32)

/-- CH.LEN (42_chunk_record R172). -/
def execChLen (sel : Subject) (arg : Word) (s : State) : Result :=
  accept s (withSubject sel arg s fun c => respond s (BitVec.ofNat 32 (chunkLength c)))

/-- CH.TYPE (42_chunk_record R173). -/
def execChType (sel : Subject) (arg : Word) (s : State) : Result :=
  accept s (withSubject sel arg s fun c => respond (setTr s (some c.type)) (be32 c.type))

/-- CH.DATA (42_chunk_record R174). -/
def execChData (sel : Subject) (arg : Word) (s : State) : Result :=
  accept s (withSubject sel arg s fun c => emit s c.data 0#32)

/-- CH.CRC (42_chunk_record R175). -/
def execChCrc (sel : Subject) (arg : Word) (s : State) : Result :=
  accept s (withSubject sel arg s fun c => respond s (chunkCrc c))

/-- CH.DATASTR (42_chunk_record R176): never an error (90_conflicts C5). -/
def execChDatastr (sel : Subject) (arg : Word) (s : State) : Result :=
  accept s (withSubject sel arg s fun c => emit s (dataStringBytes c.data) 0#32)

/-- CH.BYTES (42_chunk_record R177). -/
def execChBytes (sel : Subject) (arg : Word) (s : State) : Result :=
  accept s (withSubject sel arg s fun c => emit s (chunkAsBytes c) 0#32)

end Sys2Proof.Machine
end

