-- ==== Sys2Proof/Machine/ContainerUnit.lean ====
section
/-!
DEFINITION. The container sequencer (43_container): the stream parser and serializer, the search by type, and the seven CO commands.
-/

namespace Sys2Proof.Machine

/-- SIG, the 8 fixed signature bytes (30_encoding R80). -/
def sig : List Byte := [0x89, 0x50, 0x4E, 0x47, 0x0D, 0x0A, 0x1A, 0x0A]

/-- The loop of `container_parse` (43_container R201) on the bytes `B[pos .. n)` that remain. `fuel` bounds the iterations; a record has at
least 12 bytes (R203), so that `fuel` at least the number of bytes never runs out (log 12). The error is that of the first failing
record, and no list results (R205). -/
def parseRecords : Nat → List Byte → Except ErrorKind (List Chunk)
  | 0, _ => .ok []
  | fuel + 1, B =>
    if B.isEmpty then .ok []
    else
      match chunkParse B with
      | .error e => .error e
      | .ok r =>
        match parseRecords fuel (B.drop r.2) with
        | .error e => .error e
        | .ok list => .ok (r.1 :: list)

/-- `container_parse` (43_container R201): the signature is decided before any record is looked at, and fewer than 8 bytes are not the
signature (R204). -/
def containerParse (B : List Byte) : Except ErrorKind (List Chunk) :=
  if B.length < 8 ∨ slice B 0 8 ≠ sig then .error .invalidSignature
  else parseRecords B.length (B.drop 8)

/-- `container_as_bytes` (43_container R207). -/
def containerAsBytes (list : List Chunk) : List Byte := sig ++ list.flatMap chunkAsBytes

/-- `type_match` (43_container R214). -/
def typeMatch (c : Chunk) (str : List Byte) : Bool :=
  match str with
  | [b0, b1, b2, b3] => ctEq c.type ⟨b0, b1, b2, b3⟩
  | _ => false

/-- `find_first` (43_container R214): the least index that matches. -/
def findFirst (list : List Chunk) (str : List Byte) : Option Nat := list.findIdx? fun c => typeMatch c str

/-- A count or an index as RES shows it; it fits, since MAX_CHUNKS is at most 2^32 - 1 (00_scope R12). -/
def countWord (n : Nat) : Word := BitVec.ofNat 32 n

/-- CO.PARSE (43_container R202). -/
def execCoParse (s : State) : Result :=
  accept s (match containerParse (inputBytes s) with
    | .error e => raiseError s e
    | .ok list =>
      if list.length > s.params.maxChunks.toNat then takeFault s .capacityExceeded
      else respond (setCl s list) (countWord list.length))

/-- CO.CLEAR (43_container R210). -/
def execCoClear (s : State) : Result := accept s (respond (setCl s []) 0#32)

/-- CO.APPEND (43_container R212, R213): the chunk moves from WC to the end of the list; RES is the index it now has. -/
def execCoAppend (s : State) : Result :=
  accept s (withWorkingChunk s fun c =>
    if s.cl.length = s.params.maxChunks.toNat then takeFault s .capacityExceeded
    else respond (setWc (setCl s (s.cl ++ [c])) none) (countWord s.cl.length))

/-- CO.REMOVE (43_container R215): the first match moves from the list to WC; RES is the index it had. -/
def execCoRemove (s : State) : Result :=
  accept s (match findFirst s.cl (inputBytes s) with
    | none => raiseError s .chunkNotFound
    | some i => respond (setCl (setWc s s.cl[i]?) (s.cl.take i ++ s.cl.drop (i + 1))) (countWord i))

/-- CO.FIND (43_container R217): the index of the first match, or the length of the list for none. -/
def execCoFind (s : State) : Result :=
  accept s (respond s (countWord ((findFirst s.cl (inputBytes s)).getD s.cl.length)))

/-- CO.COUNT (43_container R219). -/
def execCoCount (s : State) : Result := accept s (respond s (countWord s.cl.length))

/-- CO.BYTES (43_container R209). -/
def execCoBytes (s : State) : Result := accept s (emit s (containerAsBytes s.cl) (countWord s.cl.length))

end Sys2Proof.Machine
end

