-- ==== Sys2Proof/Machine/Dispatch.lean ====
section
/-!
DEFINITION. The meaning of each command: one arm per constructor of Instr, one direct call each.
-/

namespace Sys2Proof.Machine

def exec (i : Instr) (s : State) : Host.Outcome State Fault Refusal :=
  match i with
  | .ctParse arg => Sys2Proof.Machine.execCtParse arg s
  | .ctParsestr => Sys2Proof.Machine.execCtParsestr s
  | .ctBytes => Sys2Proof.Machine.execCtBytes s
  | .ctTostr => Sys2Proof.Machine.execCtTostr s
  | .ctIscrit => Sys2Proof.Machine.execCtIscrit s
  | .ctIspub => Sys2Proof.Machine.execCtIspub s
  | .ctIsrsv => Sys2Proof.Machine.execCtIsrsv s
  | .ctIssafe => Sys2Proof.Machine.execCtIssafe s
  | .ctIsvalid => Sys2Proof.Machine.execCtIsvalid s
  | .crcCalc => Sys2Proof.Machine.execCrcCalc s
  | .chNew => Sys2Proof.Machine.execChNew s
  | .chParse => Sys2Proof.Machine.execChParse s
  | .chLen sel arg => Sys2Proof.Machine.execChLen sel arg s
  | .chType sel arg => Sys2Proof.Machine.execChType sel arg s
  | .chData sel arg => Sys2Proof.Machine.execChData sel arg s
  | .chCrc sel arg => Sys2Proof.Machine.execChCrc sel arg s
  | .chDatastr sel arg => Sys2Proof.Machine.execChDatastr sel arg s
  | .chBytes sel arg => Sys2Proof.Machine.execChBytes sel arg s
  | .coParse => Sys2Proof.Machine.execCoParse s
  | .coClear => Sys2Proof.Machine.execCoClear s
  | .coAppend => Sys2Proof.Machine.execCoAppend s
  | .coRemove => Sys2Proof.Machine.execCoRemove s
  | .coFind => Sys2Proof.Machine.execCoFind s
  | .coCount => Sys2Proof.Machine.execCoCount s
  | .coBytes => Sys2Proof.Machine.execCoBytes s

end Sys2Proof.Machine
end

