-- ==== Sys2Proof/WellFormed.lean ====
section
/-!
DEFINITION. When the fields of a command word are legal (30_encoding R91): four checks, one per clause of the rule. The
operands of an Instr are BitVecs of the width of their field, so that a term of Instr cannot hold a value its encoding has no
room for; `Instr.wellFormed` (Decode.lean) says that its word passes these checks.
-/

namespace Sys2Proof

/-- The format of each opcode; `none` for an opcode outside the map (30_encoding R90). -/
def opcodeFormat (op : BitVec 8) : Option Format :=
  if op = 0x10#8 then some .t
  else if 0x11#8 ≤ op ∧ op ≤ 0x18#8 then some .n
  else if op = 0x20#8 ∨ op = 0x30#8 ∨ op = 0x31#8 then some .n
  else if 0x32#8 ≤ op ∧ op ≤ 0x37#8 then some .s
  else if 0x40#8 ≤ op ∧ op ≤ 0x46#8 then some .n
  else none

/-- R91, first clause: the opcode is one of the 25. -/
def Fields.opcodeOk (f : Fields) : Bool := (opcodeFormat f.op).isSome

/-- R91, second clause: bits 15:9 are 0. -/
def Fields.reservedOk (f : Fields) : Bool := f.rsv == 0#7

/-- R91, third clause: only format S may have `s = 1`. -/
def Fields.subjectOk (f : Fields) : Bool := !f.s || opcodeFormat f.op == some .s

/-- R91, fourth clause: format N has `arg = 0`. -/
def Fields.argumentOk (f : Fields) : Bool := f.arg == 0#32 || opcodeFormat f.op != some .n

/-- The word these fields make is legal (30_encoding R91). -/
def Fields.legal (f : Fields) : Bool := f.opcodeOk && f.reservedOk && f.subjectOk && f.argumentOk

end Sys2Proof
end

