-- ==== Sys2Proof/Decode.lean ====
section
/-!
DEFINITION. From a command word to a command and back (30_encoding R88 to R92). The decoder is total: a word that is
no command is rejected with the clause of R91 it breaks. The encoder is written from the same tables.
-/

namespace Sys2Proof

/-- Which clause of 30_encoding R91 makes a word illegal. The block itself reports all four as `IllegalCommand`. -/
inductive Reject where
  | unknownOpcode
  | reservedBits
  | subjectBit
  | argumentBits
deriving DecidableEq, Repr

/-- What the decoder answers. -/
inductive Decoded where
  | instr (i : Instr)
  | reject (why : Reject)
deriving DecidableEq, Repr

/-- The fields of a command word (30_encoding R88). -/
def splitWord (w : CmdWord) : Fields where
  op := w.extractLsb' 0 8
  s := w.getLsbD 8
  rsv := w.extractLsb' 9 7
  arg := w.extractLsb' 16 32

/-- The command word with these fields, most significant field first (30_encoding R88). -/
def packFields (f : Fields) : CmdWord := f.arg ++ (f.rsv ++ (BitVec.ofBool f.s ++ f.op))

/-- What an opcode's word stands for, by its format (30_encoding R89). -/
inductive Shape where
  /-- Format N: no operand in the word. -/
  | n (i : Instr)
  /-- Format T: `arg` holds the type bytes. -/
  | t (mk : Word → Instr)
  /-- Format S: `s` selects the subject, `arg` is its index. -/
  | s (mk : Subject → Word → Instr)

/-- The opcode map (30_encoding R90). -/
def opcodeMap : List (BitVec 8 × Shape) := [
  (0x10#8, .t .ctParse),
  (0x11#8, .n .ctParsestr),
  (0x12#8, .n .ctBytes),
  (0x13#8, .n .ctTostr),
  (0x14#8, .n .ctIscrit),
  (0x15#8, .n .ctIspub),
  (0x16#8, .n .ctIsrsv),
  (0x17#8, .n .ctIssafe),
  (0x18#8, .n .ctIsvalid),
  (0x20#8, .n .crcCalc),
  (0x30#8, .n .chNew),
  (0x31#8, .n .chParse),
  (0x32#8, .s .chLen),
  (0x33#8, .s .chType),
  (0x34#8, .s .chData),
  (0x35#8, .s .chCrc),
  (0x36#8, .s .chDatastr),
  (0x37#8, .s .chBytes),
  (0x40#8, .n .coParse),
  (0x41#8, .n .coClear),
  (0x42#8, .n .coAppend),
  (0x43#8, .n .coRemove),
  (0x44#8, .n .coFind),
  (0x45#8, .n .coCount),
  (0x46#8, .n .coBytes)]

/-- The fields of a word whose opcode has this shape (30_encoding R89): what a format requires to be 0 must be 0. -/
def decodeShape (f : Fields) : Shape → Decoded
  | .n i =>
    if f.rsv ≠ 0#7 then .reject .reservedBits
    else if f.s = true then .reject .subjectBit
    else if f.arg ≠ 0#32 then .reject .argumentBits
    else .instr i
  | .t mk =>
    if f.rsv ≠ 0#7 then .reject .reservedBits
    else if f.s = true then .reject .subjectBit
    else .instr (mk f.arg)
  | .s mk =>
    if f.rsv ≠ 0#7 then .reject .reservedBits
    else .instr (mk (if f.s then .entry else .wc) f.arg)

/-- The command with these fields (30_encoding R90, R91). -/
def decodeFields (f : Fields) : Decoded :=
  match opcodeMap.lookup f.op with
  | some shape => decodeShape f shape
  | none => .reject .unknownOpcode

/-- The command a word stands for (30_encoding R88 to R91). -/
def decode (w : CmdWord) : Decoded := decodeFields (splitWord w)

/-- The command a word stands for, where it stands for one. -/
def decodeInstr (w : CmdWord) : Option Instr :=
  match decode w with
  | .instr i => some i
  | .reject _ => none

/-- Fields of a format-N command. -/
def fieldsN (op : BitVec 8) : Fields := ⟨op, false, 0#7, 0#32⟩

/-- Fields of a format-T command. -/
def fieldsT (op : BitVec 8) (arg : Word) : Fields := ⟨op, false, 0#7, arg⟩

/-- Fields of a format-S command. -/
def fieldsS (op : BitVec 8) (sel : Subject) (arg : Word) : Fields := ⟨op, sel == .entry, 0#7, arg⟩

/-- The fields of a command's word (30_encoding R89, R90). -/
def Instr.fields : Instr → Fields
  | .ctParse arg => fieldsT 0x10#8 arg
  | .ctParsestr => fieldsN 0x11#8
  | .ctBytes => fieldsN 0x12#8
  | .ctTostr => fieldsN 0x13#8
  | .ctIscrit => fieldsN 0x14#8
  | .ctIspub => fieldsN 0x15#8
  | .ctIsrsv => fieldsN 0x16#8
  | .ctIssafe => fieldsN 0x17#8
  | .ctIsvalid => fieldsN 0x18#8
  | .crcCalc => fieldsN 0x20#8
  | .chNew => fieldsN 0x30#8
  | .chParse => fieldsN 0x31#8
  | .chLen sel arg => fieldsS 0x32#8 sel arg
  | .chType sel arg => fieldsS 0x33#8 sel arg
  | .chData sel arg => fieldsS 0x34#8 sel arg
  | .chCrc sel arg => fieldsS 0x35#8 sel arg
  | .chDatastr sel arg => fieldsS 0x36#8 sel arg
  | .chBytes sel arg => fieldsS 0x37#8 sel arg
  | .coParse => fieldsN 0x40#8
  | .coClear => fieldsN 0x41#8
  | .coAppend => fieldsN 0x42#8
  | .coRemove => fieldsN 0x43#8
  | .coFind => fieldsN 0x44#8
  | .coCount => fieldsN 0x45#8
  | .coBytes => fieldsN 0x46#8

/-- The word of a command (30_encoding R92). -/
def encode (i : Instr) : CmdWord := packFields i.fields

/-- The command's word passes the checks of 30_encoding R91. -/
def Instr.wellFormed (i : Instr) : Bool := i.fields.legal

/-- A row of spec/opcode_table.json: the bits its format fixes, and their values (30_encoding R91). -/
structure TableRow where
  mask : CmdWord
  pat : CmdWord
deriving DecidableEq, Repr

/-- The rows of the opcode table for the CTU, in the table's order. -/
def tableRowsCtu : List TableRow := [
  ⟨0x00000000FFFF#48, 0x000000000010#48⟩,
  ⟨0xFFFFFFFFFFFF#48, 0x000000000011#48⟩,
  ⟨0xFFFFFFFFFFFF#48, 0x000000000012#48⟩,
  ⟨0xFFFFFFFFFFFF#48, 0x000000000013#48⟩,
  ⟨0xFFFFFFFFFFFF#48, 0x000000000014#48⟩,
  ⟨0xFFFFFFFFFFFF#48, 0x000000000015#48⟩,
  ⟨0xFFFFFFFFFFFF#48, 0x000000000016#48⟩,
  ⟨0xFFFFFFFFFFFF#48, 0x000000000017#48⟩,
  ⟨0xFFFFFFFFFFFF#48, 0x000000000018#48⟩]

/-- The rows of the opcode table for the CRCU, in the table's order. -/
def tableRowsCrcu : List TableRow := [
  ⟨0xFFFFFFFFFFFF#48, 0x000000000020#48⟩]

/-- The rows of the opcode table for the RCU, in the table's order. -/
def tableRowsRcu : List TableRow := [
  ⟨0xFFFFFFFFFFFF#48, 0x000000000030#48⟩,
  ⟨0xFFFFFFFFFFFF#48, 0x000000000031#48⟩,
  ⟨0x00000000FEFF#48, 0x000000000032#48⟩,
  ⟨0x00000000FEFF#48, 0x000000000033#48⟩,
  ⟨0x00000000FEFF#48, 0x000000000034#48⟩,
  ⟨0x00000000FEFF#48, 0x000000000035#48⟩,
  ⟨0x00000000FEFF#48, 0x000000000036#48⟩,
  ⟨0x00000000FEFF#48, 0x000000000037#48⟩]

/-- The rows of the opcode table for the CSU, in the table's order. -/
def tableRowsCsu : List TableRow := [
  ⟨0xFFFFFFFFFFFF#48, 0x000000000040#48⟩,
  ⟨0xFFFFFFFFFFFF#48, 0x000000000041#48⟩,
  ⟨0xFFFFFFFFFFFF#48, 0x000000000042#48⟩,
  ⟨0xFFFFFFFFFFFF#48, 0x000000000043#48⟩,
  ⟨0xFFFFFFFFFFFF#48, 0x000000000044#48⟩,
  ⟨0xFFFFFFFFFFFF#48, 0x000000000045#48⟩,
  ⟨0xFFFFFFFFFFFF#48, 0x000000000046#48⟩]

/-- The 25 rows of spec/opcode_table.json (30_encoding R90, R91). -/
def tableRows : List TableRow := tableRowsCtu ++ tableRowsCrcu ++ tableRowsRcu ++ tableRowsCsu

/-- The command word whose low `nbits` bits are those of `w` and whose other bits are 0. -/
def wordOfTable (nbits w : Nat) : CmdWord := BitVec.ofNat 48 (w % 2 ^ nbits)

/-- What the decoder reads from a row of the opcode table: the table numbers a word's bits as 30_encoding R88 does. No command is longer
than 48 bits. -/
def decodeTableWord (nbits w : Nat) : Option Instr :=
  if nbits ≤ 48 then decodeInstr (wordOfTable nbits w) else none

end Sys2Proof
end

