-- ==== Sys2Proof/Machine/HostPort.lean ====
section
/-!
DEFINITION. The host's side (00_scope R7, R10): what each move of the host does, what the host reads, and how a word that is no command ends.
In every operation here `s` is the state in which the move has already been taken off the port.
-/

namespace Sys2Proof.Machine

/-- The code numbers of STATUS.EC (60_exceptions R241, R261). -/
def codeNumber : Code → BitVec 4
  | .ok => 0
  | .error .invalidChunkType => 1
  | .error .invalidCrc => 2
  | .error .truncatedInput => 3
  | .error .invalidSignature => 4
  | .error .chunkNotFound => 5
  | .fault .illegalCommand => 8
  | .fault .noOperand => 9
  | .fault .indexOutOfRange => 10
  | .fault .lengthOverflow => 11
  | .fault .capacityExceeded => 12

/-- STATUS as the host reads it (10_state R31): F in bit 7, zeros in bits 6:4, EC in bits 3:0. -/
def statusWord (st : Status) : BitVec 8 := BitVec.ofBool st.f ++ (0#3 ++ codeNumber st.ec)

/-- Everything the host can read between commands (20_memory R53, 30_encoding R95). -/
structure HostView where
  status : BitVec 8
  res : Word
  ilen : Nat
  olen : Nat
  obuf : List Byte
deriving DecidableEq, Repr

/-- What the host reads in a state. -/
def hostView (s : State) : HostView where
  status := statusWord s.status
  res := s.res
  ilen := s.ibuf.length
  olen := s.obuf.length
  obuf := s.obuf.bytes

/-- Nothing waits on the port: the block does nothing (log 2). -/
def idle (s : State) : Result := .next s

/-- The host replaces the whole input buffer (20_memory R52). It has no move that writes more than IBUF_CAP bytes (log 4). -/
def hostWrite (B : List Byte) (s : State) : Result :=
  if fits s.params.ibufCap B.length then .next (setIbuf s (Memory.ofBytes B)) else .fault .hostWriteTooLong

/-- The host reads `hostView s`: no side effect (20_memory R53; log 13). -/
def hostRead (s : State) : Result := .next s

/-- The reset event (70_reset R280). The capacities are no state and stay (10_state R34); the host's later moves stay on the port. -/
def resetEvent (s : State) : Result := .next { State.reset with params := s.params, port := s.port }

/-- A word that is no command: refused while STATUS.F = 1 like every word, else `fault IllegalCommand` (30_encoding R91, 60_exceptions R247, R260). -/
def illegalCommand (s : State) : Result := accept s (takeFault s .illegalCommand)

/-- The host presents a word as its next move. -/
def presentWord (s : State) (w : CmdWord) : State := setPort s (.command w :: s.port)

end Sys2Proof.Machine
end

