-- ==== Sys2Proof/Machine/Step.lean ====
section
/-!
DEFINITION. One step of the machine: the host's next move, performed whole (00_scope R7, 20_memory R60). A command word is decoded and run; the block fetches
nothing from memory (10_state R30, 20_memory R63).
-/

namespace Sys2Proof.Machine

/-- The first move on the port is taken off it and performed; with none, the block does nothing. -/
def step (s : State) : Host.Outcome State Fault Refusal :=
  match s.port with
  | [] => idle s
  | .command w :: rest =>
    match decode w with
    | .instr i => exec i (setPort s rest)
    | .reject _ => illegalCommand (setPort s rest)
  | .writeInput B :: rest => hostWrite B (setPort s rest)
  | .readResponse :: rest => hostRead (setPort s rest)
  | .reset :: rest => resetEvent (setPort s rest)

/-- `s` with this command word presented as the host's next move (log 1). -/
def State.withFetchWord (s : State) (nbits w : Nat) : State := presentWord s (wordOfTable nbits w)

end Sys2Proof.Machine
end

