-- ==== Sys2Proof/Safety.lean ====
section
/-!
DEFINITION. What claims about runs are stated in: the invariant of the state (10_state R21 to R36, 20_memory R50 to R52), and which commands may write which
piece of it, and what they write to the output buffer.
-/

namespace Sys2Proof.Machine

/-- STATUS.F and STATUS.EC agree: F = 1 exactly with a fault code (10_state R31, 60_exceptions R260). -/
def Status.coherent (st : Status) : Bool :=
  match st.ec with
  | .fault _ => st.f
  | _ => !st.f

/-- What the spec says of every state: every stored type is alphabetic and every payload short enough (10_state R21, R22, R24), the list is within
MAX_CHUNKS (R27), STATUS is coherent (R31), the buffers are in canonical form and within their capacities (20_memory R50, R51). -/
abbrev State.Inv (s : State) : Prop :=
  s.tr.all ChunkType.alphabetic = true ∧
  s.wc.all Chunk.ok = true ∧
  s.cl.all Chunk.ok = true ∧
  s.cl.length ≤ s.params.maxChunks.toNat ∧
  s.status.coherent = true ∧
  s.ibuf.wf = true ∧
  s.obuf.wf = true ∧
  fits s.params.ibufCap s.ibuf.length = true ∧
  fits s.params.obufCap s.obuf.length = true

/-- `c` is the subject that `sel` and `arg` name in `s` (30_encoding R89). -/
def isSubject (sel : Subject) (arg : Word) (s : State) (c : Chunk) : Prop :=
  match sel with
  | .wc => s.wc = some c
  | .entry => s.cl[arg.toNat]? = some c

/-- What a command may read and write besides RES and STATUS, and how it may end besides OK. -/
structure Access where
  /-- It reads TR (10_state R24). -/
  readsTr : Bool := false
  /-- It reads WC (10_state R25). -/
  readsWc : Bool := false
  /-- It reads the input buffer (20_memory R51). -/
  readsInput : Bool := false
  /-- It may write TR (10_state R24). -/
  writesTr : Bool := false
  /-- It may write WC (10_state R25). -/
  writesWc : Bool := false
  /-- It may write CL (10_state R27). -/
  writesCl : Bool := false
  /-- It may write the output buffer (20_memory R57). -/
  writesObuf : Bool := false
  /-- The errors it may raise (60_exceptions R241, fourth column). -/
  errors : List ErrorKind := []
  /-- The protocol faults it may end in (60_exceptions R261, fourth column). -/
  faults : List FaultReason := []
deriving DecidableEq, Repr

/-- Reading a subject: WC or a list entry, with the fault for its absence (30_encoding R89). -/
def subjectAccess : Subject → Access
  | .wc => { readsWc := true, faults := [.noOperand] }
  | .entry => { faults := [.indexOutOfRange] }

/-- Reading a subject into the output buffer (42_chunk_record R174, R176, R177). -/
def subjectToObuf (sel : Subject) : Access :=
  { subjectAccess sel with writesObuf := true, faults := (subjectAccess sel).faults ++ [.capacityExceeded] }

/-- The access of each command, from the tables of 10_state R24, R25, R27, R36, 20_memory R51, R57, 60_exceptions R241 and R261. CapacityExceeded of CT.TOSTR is
by 20_memory R57 (log 5). -/
def access : Instr → Access
  | .ctParse _ => { writesTr := true, errors := [.invalidChunkType] }
  | .ctParsestr => { readsInput := true, writesTr := true, errors := [.invalidChunkType] }
  | .ctBytes => { readsTr := true, faults := [.noOperand] }
  | .ctTostr => { readsTr := true, writesObuf := true, faults := [.noOperand, .capacityExceeded] }
  | .ctIscrit => { readsTr := true, faults := [.noOperand] }
  | .ctIspub => { readsTr := true, faults := [.noOperand] }
  | .ctIsrsv => { readsTr := true, faults := [.noOperand] }
  | .ctIssafe => { readsTr := true, faults := [.noOperand] }
  | .ctIsvalid => { readsTr := true, faults := [.noOperand] }
  | .crcCalc => { readsInput := true }
  | .chNew => { readsTr := true, readsInput := true, writesWc := true, faults := [.noOperand, .lengthOverflow] }
  | .chParse => { readsInput := true, writesWc := true, errors := [.truncatedInput, .invalidChunkType, .invalidCrc] }
  | .chLen sel _ => subjectAccess sel
  | .chType sel _ => { subjectAccess sel with writesTr := true }
  | .chData sel _ => subjectToObuf sel
  | .chCrc sel _ => subjectAccess sel
  | .chDatastr sel _ => subjectToObuf sel
  | .chBytes sel _ => subjectToObuf sel
  | .coParse =>
    { readsInput := true, writesCl := true, faults := [.capacityExceeded],
      errors := [.invalidSignature, .truncatedInput, .invalidChunkType, .invalidCrc] }
  | .coClear => { writesCl := true }
  | .coAppend => { readsWc := true, writesWc := true, writesCl := true, faults := [.noOperand, .capacityExceeded] }
  | .coRemove => { readsInput := true, writesWc := true, writesCl := true, errors := [.chunkNotFound] }
  | .coFind => { readsInput := true }
  | .coCount => {}
  | .coBytes => { writesObuf := true, faults := [.capacityExceeded] }

/-- The subject that `sel` and `arg` name in `s`, where there is one (30_encoding R89). -/
def subjectOf (sel : Subject) (arg : Word) (s : State) : Option Chunk :=
  match sel with
  | .wc => s.wc
  | .entry => s.cl[arg.toNat]?

/-- The byte sequence that a command produces for the output buffer, where it produces one (20_memory R57; 40_chunk_type R115, 42_chunk_record R174, R176, R177,
43_container R209). It does not depend on the output buffer. -/
def outputOf (i : Instr) (s : State) : Option (List Byte) :=
  match i with
  | .ctParse _ => none
  | .ctParsestr => none
  | .ctBytes => none
  | .ctTostr => s.tr.map quadBytes
  | .ctIscrit => none
  | .ctIspub => none
  | .ctIsrsv => none
  | .ctIssafe => none
  | .ctIsvalid => none
  | .crcCalc => none
  | .chNew => none
  | .chParse => none
  | .chLen _ _ => none
  | .chType _ _ => none
  | .chData sel arg => (subjectOf sel arg s).map Chunk.data
  | .chCrc _ _ => none
  | .chDatastr sel arg => (subjectOf sel arg s).map fun c => dataStringBytes c.data
  | .chBytes sel arg => (subjectOf sel arg s).map chunkAsBytes
  | .coParse => none
  | .coClear => none
  | .coAppend => none
  | .coRemove => none
  | .coFind => none
  | .coCount => none
  | .coBytes => some (containerAsBytes s.cl)

end Sys2Proof.Machine
end

