-- ==== Sys2Proof/Certificates/Slice0/Obligations.lean ====
section
/-!
DEFINITION. The statements for the provers. Every state in them is any state, not only one that a run reaches, unless a statement names the invariant
`State.Inv`. A command that is accepted starts in a state with STATUS.F = 0; the statement CommandsAreRefusedAfterAFault has the other case.
-/

open Sys2Proof Sys2Proof.Machine

/-! ### Encoding -/

/-- 30_encoding R88 to R90: decoding the word of a command gives that command, with every operand value. The encoding is the spec's own decision D3
(92_eei_decisions). -/
def Obligations.DecodeOfEncodeIsTheCommand : Prop :=
  ∀ i : Instr, i.wellFormed = true → decode (encode i) = .instr i

/-- 30_encoding R88 to R91: a legal word is the word of the command it decodes to, so that no two words mean the same command. The encoding is the spec's
own decision D3 (92_eei_decisions). -/
def Obligations.EncodeOfDecodeIsTheWord : Prop :=
  ∀ (w : CmdWord) (i : Instr), decode w = .instr i → encode i = w

/-- 30_encoding R92. The spec derives R92 from R88 and R90, its own decision D3 (92_eei_decisions). -/
def Obligations.CommandWordIsTheSumOfItsFields : Prop :=
  (∀ i : Instr, (encode i).toNat = i.fields.op.toNat + i.fields.s.toNat * 2 ^ 8 + i.fields.arg.toNat * 2 ^ 16) ∧
  encode (.ctParse 0x52755374#32) = 0x527553740010#48 ∧
  encode (.chLen .wc 0#32) = 0x000000000032#48 ∧
  encode (.chLen .entry 2#32) = 0x000000020132#48 ∧
  encode .coParse = 0x000000000040#48

/-- 30_encoding R91: the four clauses of illegality on the bits of the word, the table's rows (mask and match), and what an illegal word does. R91 is the
spec's own decision D3, D8 (92_eei_decisions); the port is the model's (log 1). -/
def Obligations.IllegalWordsFaultLegalWordsMatchOneRow : Prop :=
  (∀ w : CmdWord, (∃ i, decode w = .instr i) ↔
    (opcodeFormat (w.extractLsb' 0 8)).isSome = true ∧ w.extractLsb' 9 7 = 0#7 ∧
    (w.getLsbD 8 = true → opcodeFormat (w.extractLsb' 0 8) = some .s) ∧
    (opcodeFormat (w.extractLsb' 0 8) = some .n → w.extractLsb' 16 32 = 0#32)) ∧
  (∀ w : CmdWord, (∃ i, decode w = .instr i) ↔ ∃! r, r ∈ tableRows ∧ w &&& r.mask = r.pat) ∧
  (∀ (s : State) (w : CmdWord) (rest : List HostEvent), s.port = .command w :: rest → s.status.f = false →
    (¬ ∃ i, decode w = .instr i) →
    step s = .next { s with port := rest, status := ⟨.fault .illegalCommand, true⟩ })

/-- Words written out from 30_encoding R88 to R92, one or more per unit, and one word for each way to be illegal. The encoding is the spec's own decision
D3 (92_eei_decisions). -/
def Obligations.SampleWordsDecode : Prop :=
  decode 0x527553740010#48 = .instr (.ctParse 0x52755374#32) ∧
  decode 0x000000000018#48 = .instr .ctIsvalid ∧
  decode 0x000000000020#48 = .instr .crcCalc ∧
  decode 0xFFFFFFFF0032#48 = .instr (.chLen .wc 0xFFFFFFFF#32) ∧
  decode 0x000000020137#48 = .instr (.chBytes .entry 2#32) ∧
  decode 0x000000000046#48 = .instr .coBytes ∧
  decode 0x000000000019#48 = .reject .unknownOpcode ∧
  decode 0x000000008032#48 = .reject .reservedBits ∧
  decode 0x527553740110#48 = .reject .subjectBit ∧
  decode 0x000000010045#48 = .reject .argumentBits

/-! ### One step -/

/-- 30_encoding R88, 00_scope R7: a command word at the head of the port that decodes to `i` is taken off the port and `i` runs. Nothing else is added
around exec: there is no program counter (10_state R30). The port is the model's (log 1). That words wait in a list is the model's choice (log 1). -/
def Obligations.StepRunsTheDecodedCommand : Prop :=
  ∀ (s : State) (w : CmdWord) (rest : List HostEvent) (i : Instr),
    s.port = .command w :: rest → decode w = .instr i → step s = exec i { s with port := rest }

/-- 20_memory R52: a host write within the capacity replaces the whole input buffer and changes nothing else. A longer write is no move of the host: the
model stops (log 4). R52 is the spec's own decision D2. -/
def Obligations.HostWriteReplacesTheInputBuffer : Prop :=
  (∀ (s : State) (B : List Byte) (rest : List HostEvent), s.port = .writeInput B :: rest → fits s.params.ibufCap B.length = true →
    ∃ t, step s = .next t ∧ t = { s with port := rest, ibuf := t.ibuf } ∧ t.ibuf.length = B.length ∧
      (∀ a, t.ibuf.read a = B[a]?) ∧ inputBytes t = B) ∧
  (∀ (s : State) (B : List Byte) (rest : List HostEvent), s.port = .writeInput B :: rest → fits s.params.ibufCap B.length = false →
    step s = .fault .hostWriteTooLong)

/-- 20_memory R53 and the model's choice for an empty port (log 2): reading changes nothing, and with no move of the host the block does nothing. R53 is
the spec's own decision D2; the event of a read is log 13. -/
def Obligations.HostReadAndIdleChangeNothing : Prop :=
  (∀ (s : State) (rest : List HostEvent), s.port = .readResponse :: rest →
    step s = .next { s with port := rest } ∧ hostView { s with port := rest } = hostView s) ∧
  (∀ s : State, s.port = [] → step s = .next s)

/-- 70_reset R280, 10_state R36: what the reset event leaves, in every state, faulted or not. No buffer byte is readable. The capacities are no state
(10_state R34). The reset values are the spec's own decision D9; the port is the model's (log 1). -/
def Obligations.ResetEventEmptiesEverything : Prop :=
  ∀ (s : State) (rest : List HostEvent), s.port = .reset :: rest →
    ∃ t, step s = .next t ∧ t.tr = none ∧ t.wc = none ∧ t.cl = [] ∧ t.res = 0#32 ∧ statusWord t.status = 0#8 ∧ t.status.f = false ∧
      t.ibuf.length = 0 ∧ t.obuf.length = 0 ∧ (∀ a, t.ibuf.read a = none ∧ t.obuf.read a = none) ∧
      t.params = s.params ∧ t.port = rest

/-- 70_reset R280: "Reset is the only way to clear STATUS.F and the only way to empty TR". R280 is the spec's own decision D9. -/
def Obligations.OnlyResetClearsTheFaultOrEmptiesTr : Prop :=
  ∀ s t : State, step s = .next t →
    (s.status.f = true → t.status.f = false → ∃ rest, s.port = .reset :: rest) ∧
    (s.tr ≠ none → t.tr = none → ∃ rest, s.port = .reset :: rest)

/-- 10_state R36: the values after reset that the spec gives. The reset values are the spec's own decision D9. -/
def Obligations.ResetStateHasTheListedValues : Prop :=
  State.reset.tr = none ∧ State.reset.wc = none ∧ State.reset.cl = [] ∧ State.reset.res = 0#32 ∧
  State.reset.status = ⟨.ok, false⟩ ∧ State.reset.ibuf.length = 0 ∧ State.reset.obuf.length = 0

/-! ### Rules of the whole machine -/

/-- 00_scope R9, 60_exceptions R240: every command ends with a response; no command stops the model. -/
def Obligations.EveryCommandAnswersANextState : Prop :=
  ∀ (i : Instr) (s : State), ∃ t, exec i s = .next t

/-- 60_exceptions R260: while STATUS.F = 1 every word, legal or not, is refused and no state changes (the model's port moves on). R260 is the spec's own
decision D8. -/
def Obligations.CommandsAreRefusedAfterAFault : Prop :=
  (∀ (i : Instr) (s : State), s.status.f = true → exec i s = .next s) ∧
  (∀ (s : State) (w : CmdWord) (rest : List HostEvent), s.port = .command w :: rest → s.status.f = true →
    step s = .next { s with port := rest })

/-- 60_exceptions R260 with the fourth column of R261: a protocol fault sets F and the code and changes nothing else, and only the listed commands end in
it. CT.TOSTR is listed for CapacityExceeded by 20_memory R57 (log 5, the model's reading). R260 and R261 are the spec's own decision D8. -/
def Obligations.AFaultChangesOnlyStatus : Prop :=
  ∀ (i : Instr) (s t : State), s.status.f = false → exec i s = .next t → t.status.f = true →
    ∃ r, r ∈ (access i).faults ∧ t = { s with status := ⟨.fault r, true⟩ }

/-- 60_exceptions R250, with the fourth column of R241: an error sets the code and RES = 0 and changes nothing else, and only the listed commands raise it.
R250 and R241 are the spec's own decisions D12 and D6. -/
def Obligations.AnErrorChangesOnlyCodeAndResult : Prop :=
  ∀ (i : Instr) (s t : State) (e : ErrorKind), s.status.f = false → exec i s = .next t → t.status.ec = .error e →
    e ∈ (access i).errors ∧ t = { s with res := 0#32, status := ⟨.error e, false⟩ }

/-- 60_exceptions R251, R252: an error is not sticky. What a command does never depends on the outcome code of an earlier one. R251 is the spec's own
decision D6. -/
def Obligations.OutcomeCodesDoNotInfluenceLaterCommands : Prop :=
  ∀ (i : Instr) (s : State) (c : Code), s.status.f = false → exec i { s with status := ⟨c, false⟩ } = exec i s

/-- 10_state R31, 60_exceptions R241, R261: STATUS as the host reads it. The layout and the codes are the spec's own decisions D6 and D8. -/
def Obligations.StatusWordLayout : Prop :=
  (∀ st : Status, (statusWord st).extractLsb' 0 4 = codeNumber st.ec ∧ (statusWord st).extractLsb' 4 3 = 0#3 ∧ (statusWord st).getLsbD 7 = st.f) ∧
  codeNumber .ok = 0#4 ∧
  codeNumber (.error .invalidChunkType) = 1#4 ∧ codeNumber (.error .invalidCrc) = 2#4 ∧ codeNumber (.error .truncatedInput) = 3#4 ∧
  codeNumber (.error .invalidSignature) = 4#4 ∧ codeNumber (.error .chunkNotFound) = 5#4 ∧
  codeNumber (.fault .illegalCommand) = 8#4 ∧ codeNumber (.fault .noOperand) = 9#4 ∧ codeNumber (.fault .indexOutOfRange) = 10#4 ∧
  codeNumber (.fault .lengthOverflow) = 11#4 ∧ codeNumber (.fault .capacityExceeded) = 12#4

/-- 20_memory R52, R56, 10_state R34: no command changes a byte of the input buffer, its length, or the capacities. R52 is the spec's own decision D2. -/
def Obligations.CommandsKeepTheInputBuffer : Prop :=
  ∀ (i : Instr) (s t : State), exec i s = .next t →
    (∀ a, t.ibuf.read a = s.ibuf.read a) ∧ t.ibuf.length = s.ibuf.length ∧ inputBytes t = inputBytes s ∧ t.params = s.params ∧ t.port = s.port

/-- The frame of TR, WC and CL: only the commands that 10_state R24, R25 and R27 name write them. The registers are the spec's own decision D4. -/
def Obligations.OnlyTheNamedCommandsWriteTheChunkRegisters : Prop :=
  ∀ (i : Instr) (s t : State), exec i s = .next t →
    ((access i).writesTr = false → t.tr = s.tr) ∧ ((access i).writesWc = false → t.wc = s.wc) ∧ ((access i).writesCl = false → t.cl = s.cl)

/-- The frame of OBUF (20_memory R57). Every command but five, every error, every fault and every refused command leaves every byte and the length as they
were. One of the five, when it succeeds, leaves exactly the byte sequence it produces, which is within the capacity; and the whole state after it is the same
for every old content, so that nothing is appended and nothing older stays visible. R57 is the spec's own decision D2, D1; that CT.TOSTR succeeds only within
the capacity is the model's reading of it (log 5), and the bytes of CH.DATASTR are decision D7 and general knowledge G3 (log 7). -/
def Obligations.OutputBufferIsReplacedWholeOrKept : Prop :=
  ∀ (i : Instr) (s t : State), exec i s = .next t →
    (((access i).writesObuf = false ∨ t.status.ec ≠ .ok ∨ s.status.f = true) → (∀ a, t.obuf.read a = s.obuf.read a) ∧ t.obuf.length = s.obuf.length) ∧
    ((access i).writesObuf = true → t.status.ec = .ok → s.status.f = false →
      (∃ B : List Byte, outputOf i s = some B ∧ fits s.params.obufCap B.length = true ∧
        t.obuf.bytes = B ∧ t.obuf.length = B.length ∧ ∀ a, t.obuf.read a = B[a]?) ∧
      ∀ old : Memory, exec i { s with obuf := old } = .next t)

/-- 20_memory R51, 70_reset R294: a command that 20_memory R51 does not name as a reader of the input buffer does not depend on it, its length included.
R51 is the spec's own decision D2. -/
def Obligations.OtherCommandsIgnoreTheInputBuffer : Prop :=
  ∀ (i : Instr) (s t : State) (m : Memory), (access i).readsInput = false → exec i s = .next t →
    exec i { s with ibuf := m } = .next { t with ibuf := m }

/-- 10_state R21 to R31, R36, 20_memory R50 to R52: every step keeps the invariant of the state. The registers, the list and the buffers are the spec's own
decisions D4, D9 and D2. -/
def Obligations.EveryStepKeepsTheInvariant : Prop :=
  ∀ s t : State, s.Inv → step s = .next t → t.Inv

/-- The state after reset meets the invariant. The reset values are the spec's own decision D9. -/
def Obligations.ResetMeetsTheInvariant : Prop := State.reset.Inv

/-- 10_state R26, 30_encoding R89, 60_exceptions R261: reading an empty register or a list entry that does not exist is a fault. R26, R89 and R261 are the
spec's own decisions D8 and D3. -/
def Obligations.AbsentOperandsFault : Prop :=
  (∀ (i : Instr) (s : State), s.status.f = false → (access i).readsTr = true → s.tr = none →
    exec i s = .next { s with status := ⟨.fault .noOperand, true⟩ }) ∧
  (∀ (i : Instr) (s : State), s.status.f = false → (access i).readsWc = true → s.wc = none →
    exec i s = .next { s with status := ⟨.fault .noOperand, true⟩ }) ∧
  (∀ (s : State) (arg : Word), s.status.f = false → s.cl.length ≤ arg.toNat →
    ∀ i ∈ [Instr.chLen .entry arg, .chType .entry arg, .chData .entry arg, .chCrc .entry arg, .chDatastr .entry arg, .chBytes .entry arg],
      exec i s = .next { s with status := ⟨.fault .indexOutOfRange, true⟩ })

/-! ### Functions of the units -/

/-- 00_scope R15: `be32` and `to_be32`. The primitives are the spec's own (D2). -/
def Obligations.BigEndianWordsAreWeightedSums : Prop :=
  (∀ q : Quad, (be32 q).toNat = q.b0.toNat * 2 ^ 24 + q.b1.toNat * 2 ^ 16 + q.b2.toNat * 2 ^ 8 + q.b3.toNat) ∧
  (∀ q : Quad, toBe32 (be32 q) = q) ∧ (∀ v : Word, be32 (toBe32 v) = v)

/-- 40_chunk_type R110 (the byte values are the spec's general knowledge G2; log 7). -/
def Obligations.LettersAreTwoByteRanges : Prop :=
  (∀ b : Byte, alpha b = true ↔ (0x41 ≤ b.toNat ∧ b.toNat ≤ 0x5A) ∨ (0x61 ≤ b.toNat ∧ b.toNat ≤ 0x7A)) ∧
  (∀ b : Byte, alpha b = true → b.getLsbD 7 = false ∧ b.getLsbD 6 = true) ∧
  (∀ b : Byte, alpha b = true → caseBit b = false → alpha (b ||| 0x20#8) = true ∧ (b ||| 0x20#8).toNat = b.toNat + 0x20)

/-- 40_chunk_type R123: the flags of every constructed type, by the case of its letters (a byte up to 0x5A is uppercase). The spec derives the table of
R123 from R116 to R120. -/
def Obligations.FlagsFollowTheCasePattern : Prop :=
  ∀ t : ChunkType, t.alphabetic = true →
    ctIsCritical t = decide (t.b0.toNat ≤ 0x5A) ∧ ctIsPublic t = decide (t.b1.toNat ≤ 0x5A) ∧
    ctIsReservedBitValid t = decide (t.b2.toNat ≤ 0x5A) ∧ ctIsSafeToCopy t = decide (0x61 ≤ t.b3.toNat) ∧
    ctIsValid t = decide (t.b2.toNat ≤ 0x5A)

/-- 40_chunk_type R121: equality and order of types are those of their big-endian numbers. The order is the spec's own derivation. -/
def Obligations.TypeOrderIsTheOrderOfBe32 : Prop :=
  ∀ a b : ChunkType, (ctEq a b = true ↔ a = b) ∧ (ctEq a b = true ↔ be32 a = be32 b) ∧ (ctLt a b = true ↔ (be32 a).toNat < (be32 b).toNat)

/-- 41_crc32 R140 (the spec's general knowledge G1; log 6): the parameters in the form R141 uses, and the check value. -/
def Obligations.ChecksumParametersAndCheckValue : Prop :=
  (∀ k < 32, crcParams.polyReflected.getLsbD k = (0x04C11DB7#32).getMsbD k) ∧
  crcParams.init = 0xFFFFFFFF#32 ∧ crcParams.xorOut = 0xFFFFFFFF#32 ∧
  crc32 [0x31, 0x32, 0x33, 0x34, 0x35, 0x36, 0x37, 0x38, 0x39] = 0xCBF43926#32

/-- 41_crc32 R142: the table form equals the bitwise form for every accumulator and byte, and the table holds the results of eight shift steps. The spec
derives R142 from R141. -/
def Obligations.ChecksumTableFormAgrees : Prop :=
  crcTable.length = 256 ∧
  (∀ k < 256, crcTable[k]? = some (crcShifts 8 (BitVec.ofNat 32 k))) ∧
  (∀ (acc : Word) (b : Byte), crcStep acc b = crcStepTable acc b)

/-- 41_crc32 R143 (a), (b), R144: the empty checksum, streaming, and what a chunk's checksum covers. The spec derives R143 from R141. -/
def Obligations.ChecksumStreams : Prop :=
  crc32 [] = 0#32 ∧
  (∀ (acc : Word) (X Y : List Byte), crcFold acc (X ++ Y) = crcFold (crcFold acc X) Y) ∧
  (∀ c : Chunk, chunkCrc c = crc32 (quadBytes c.type ++ c.data) ∧
    chunkCrc c = crcFold (crcFold 0xFFFFFFFF#32 (quadBytes c.type)) c.data ^^^ 0xFFFFFFFF#32)

/-- 41_crc32 R143 (c): the checksum depends on every byte. Changing one byte of any message changes its checksum. The spec derives R143 from R141. -/
def Obligations.ChecksumDependsOnEveryByte : Prop :=
  ∀ (X Y : List Byte) (b b' : Byte), b ≠ b' → crc32 (X ++ b :: Y) ≠ crc32 (X ++ b' :: Y)

/-- 42_chunk_record R164, R168, 60_exceptions R244: when a record is truncated, on natural numbers. R168 is the spec's own derivation.
That a truncated record is TruncatedInput also where its type is not four letters is the spec's own decision D10 (R165; log 14, DEDUCED): the other reading
it names answers InvalidChunkType there from 8 bytes on. -/
def Obligations.TruncatedExactlyWhenTooShort : Prop :=
  ∀ B : List Byte, chunkParse B = .error .truncatedInput ↔
    B.length < 12 ∨ ∃ (len : Quad) (rest : List Byte), B = quadBytes len ++ rest ∧ B.length < 12 + (be32 len).toNat

/-- 42_chunk_record R164, R165, R167: what a complete record gives, whatever follows it. The priority of R165 and the tail of R167 are the spec's own
decisions D10 and D15 (log 14). -/
def Obligations.CompleteRecordOutcome : Prop :=
  ∀ (len t crc : Quad) (d tail : List Byte), d.length = (be32 len).toNat →
    chunkParse (quadBytes len ++ quadBytes t ++ d ++ quadBytes crc ++ tail) =
      if ChunkType.alphabetic t = false then .error .invalidChunkType
      else if crc32 (quadBytes t ++ d) ≠ be32 crc then .error .invalidCrc
      else .ok (⟨t, d⟩, 12 + d.length)

/-- 42_chunk_record R161: the serialized record. -/
def Obligations.SerializedRecordLayout : Prop :=
  ∀ c : Chunk, chunkAsBytes c =
      quadBytes (toBe32 (BitVec.ofNat 32 c.data.length)) ++ quadBytes c.type ++ c.data ++ quadBytes (toBe32 (crc32 (quadBytes c.type ++ c.data))) ∧
    (chunkAsBytes c).length = 12 + c.data.length

/-- 42_chunk_record R170: parsing and serializing a record are inverse; R167: bytes after the record are ignored. The spec derives R170 from R161 and R164;
that bytes after the record are ignored is its own decision D15 (R167; log 14, DEDUCED). -/
def Obligations.RecordRoundTrip : Prop :=
  (∀ (t : ChunkType) (d tail : List Byte), t.alphabetic = true → d.length ≤ 0xFFFFFFFF →
    chunkParse (chunkAsBytes (chunkNew t d) ++ tail) = .ok (⟨t, d⟩, 12 + d.length)) ∧
  (∀ (B : List Byte) (c : Chunk) (k : Nat), chunkParse B = .ok (c, k) →
    chunkAsBytes c = B.take k ∧ k = 12 + c.data.length ∧ k ≤ B.length ∧ c.ok = true)

/-- 42_chunk_record R171 (a), (b): a flipped bit of the crc field, and every cut of a record. The spec derives R171 from R164. R171
speaks of the record's own buffer; that (a) holds whatever follows the record rests on the spec's own decision D15 (R167; log 14, DEDUCED). -/
def Obligations.DamagedRecordsAreRejected : Prop :=
  (∀ (c : Chunk) (k : Nat) (tail : List Byte), c.ok = true → k < 32 →
    chunkParse (quadBytes (toBe32 (BitVec.ofNat 32 c.data.length)) ++ quadBytes c.type ++ c.data ++
      quadBytes (toBe32 (chunkCrc c ^^^ BitVec.twoPow 32 k)) ++ tail) = .error .invalidCrc) ∧
  (∀ (c : Chunk) (n : Nat), c.ok = true → n < 12 + c.data.length →
    chunkParse ((chunkAsBytes c).take n) = .error .truncatedInput)

/-- 42_chunk_record R176: one character per payload byte, never lost, and the bytes that carry them. -/
def Obligations.DataStringIsOneCharacterPerByte : Prop :=
  (∀ d : List Byte, dataAsString d = d.map BitVec.toNat ∧
    (dataStringBytes d).length = d.length + (d.filter fun b => decide (0x80 ≤ b.toNat)).length) ∧
  (∀ d d' : List Byte, dataAsString d = dataAsString d' → d = d') ∧
  (∀ d d' : List Byte, dataStringBytes d = dataStringBytes d' → d = d')

/-- 43_container R204, R245 of 60_exceptions: the signature is decided first. R204 is the spec's own decision D11 (log 14). -/
def Obligations.SignatureIsCheckedFirst : Prop :=
  ∀ B : List Byte, containerParse B = .error .invalidSignature ↔
    ¬ ∃ rest, B = [0x89, 0x50, 0x4E, 0x47, 0x0D, 0x0A, 0x1A, 0x0A] ++ rest

/-- 43_container R201, R202, R205: after any records, the error of the first failing record is the error of the whole stream. R205 is the spec's own
decision D12. -/
def Obligations.StreamErrorIsThatOfTheFirstFailingRecord : Prop :=
  ∀ (list : List Chunk) (B : List Byte) (e : ErrorKind), (∀ c ∈ list, c.ok = true) → B ≠ [] → chunkParse B = .error e →
    containerParse (containerAsBytes list ++ B) = .error e

/-- 43_container R208: parsing and serializing a stream are inverse. The spec derives the converse of R208. -/
def Obligations.ContainerRoundTrip : Prop :=
  (∀ (B : List Byte) (list : List Chunk), containerParse B = .ok list → containerAsBytes list = B ∧ ∀ c ∈ list, c.ok = true) ∧
  (∀ list : List Chunk, (∀ c ∈ list, c.ok = true) → containerParse (containerAsBytes list) = .ok list)

/-- 43_container R207: the serialized stream and its length. -/
def Obligations.SerializedStreamLayout : Prop :=
  containerAsBytes [] = [0x89, 0x50, 0x4E, 0x47, 0x0D, 0x0A, 0x1A, 0x0A] ∧
  (∀ (list : List Chunk) (c : Chunk), containerAsBytes (list ++ [c]) = containerAsBytes list ++ chunkAsBytes c) ∧
  (∀ list : List Chunk, (containerAsBytes list).length = 8 + (list.map fun c => 12 + c.data.length).sum)

/-- 43_container R214: `type_match` and `find_first`. The spec derives R214 from R115 and R87. -/
def Obligations.FindFirstIsTheLeastMatch : Prop :=
  (∀ (c : Chunk) (str : List Byte), typeMatch c str = true ↔ str = [c.type.b0, c.type.b1, c.type.b2, c.type.b3]) ∧
  (∀ (list : List Chunk) (str : List Byte) (k : Nat), findFirst list str = some k ↔
    (∃ c, list[k]? = some c ∧ typeMatch c str = true) ∧ ∀ j < k, ∀ c, list[j]? = some c → typeMatch c str = false) ∧
  (∀ (list : List Chunk) (str : List Byte), findFirst list str = none ↔ ∀ c ∈ list, typeMatch c str = false)

/-! ### The commands of the chunk-type unit and of the CRC unit -/

/-- CT.PARSE, 40_chunk_type R112. -/
def Obligations.CtParseLoadsFourLetters : Prop :=
  (∀ arg : Word, (encode (.ctParse arg)).extractLsb' 0 16 = 0x0010#16 ∧ (encode (.ctParse arg)).extractLsb' 16 32 = arg) ∧
  (∀ (s : State) (t : Quad), s.status.f = false → ChunkType.alphabetic t = true →
    exec (.ctParse (be32 t)) s = .next { s with tr := some t, res := 0#32, status := ⟨.ok, false⟩ }) ∧
  (∀ (s : State) (t : Quad), s.status.f = false → ChunkType.alphabetic t = false →
    exec (.ctParse (be32 t)) s = .next { s with res := 0#32, status := ⟨.error .invalidChunkType, false⟩ })

/-- CT.PARSESTR, 40_chunk_type R113. -/
def Obligations.CtParsestrLoadsAFourLetterString : Prop :=
  encode .ctParsestr = 0x000000000011#48 ∧
  (∀ (s : State) (t : Quad), s.status.f = false → inputBytes s = quadBytes t → ChunkType.alphabetic t = true →
    exec .ctParsestr s = .next { s with tr := some t, res := 0#32, status := ⟨.ok, false⟩ }) ∧
  (∀ s : State, s.status.f = false → (∀ t : Quad, inputBytes s = quadBytes t → ChunkType.alphabetic t = false) →
    exec .ctParsestr s = .next { s with res := 0#32, status := ⟨.error .invalidChunkType, false⟩ })

/-- CT.BYTES, 40_chunk_type R114. The packing is the spec's own decision D5. -/
def Obligations.CtBytesPacksTheType : Prop :=
  encode .ctBytes = 0x000000000012#48 ∧
  (∀ (s : State) (t : ChunkType), s.status.f = false → s.tr = some t →
    exec .ctBytes s = .next { s with res := be32 t, status := ⟨.ok, false⟩ }) ∧
  (∀ s : State, s.status.f = false → s.tr = none → exec .ctBytes s = .next { s with status := ⟨.fault .noOperand, true⟩ })

/-- CT.TOSTR, 40_chunk_type R115, with the capacity of 20_memory R57 (log 5, the model's reading). -/
def Obligations.CtTostrWritesTheFourLetters : Prop :=
  encode .ctTostr = 0x000000000013#48 ∧
  (∀ s : State, s.status.f = false → s.tr = none → exec .ctTostr s = .next { s with status := ⟨.fault .noOperand, true⟩ }) ∧
  (∀ (s : State) (t : ChunkType), s.status.f = false → s.tr = some t → fits s.params.obufCap 4 = true →
    ∃ u, exec .ctTostr s = .next u ∧ u = { s with obuf := u.obuf, res := 0#32, status := ⟨.ok, false⟩ } ∧
      u.obuf.bytes = [t.b0, t.b1, t.b2, t.b3] ∧ u.obuf.length = 4 ∧ ∀ a, u.obuf.read a = [t.b0, t.b1, t.b2, t.b3][a]?) ∧
  (∀ (s : State) (t : ChunkType), s.status.f = false → s.tr = some t → fits s.params.obufCap 4 = false →
    exec .ctTostr s = .next { s with status := ⟨.fault .capacityExceeded, true⟩ })

/-- CT.ISCRIT, CT.ISPUB, CT.ISRSV, CT.ISSAFE, CT.ISVALID, 40_chunk_type R116 to R120: bit 5 of one byte each, the fourth with the opposite polarity. -/
def Obligations.CtPredicatesReadTheCaseBits : Prop :=
  encode .ctIscrit = 0x000000000014#48 ∧ encode .ctIspub = 0x000000000015#48 ∧ encode .ctIsrsv = 0x000000000016#48 ∧
  encode .ctIssafe = 0x000000000017#48 ∧ encode .ctIsvalid = 0x000000000018#48 ∧
  (∀ s : State, s.status.f = false → s.tr = none →
    ∀ i ∈ [Instr.ctIscrit, .ctIspub, .ctIsrsv, .ctIssafe, .ctIsvalid], exec i s = .next { s with status := ⟨.fault .noOperand, true⟩ }) ∧
  ∀ (s : State) (t : ChunkType), s.status.f = false → s.tr = some t →
    exec .ctIscrit s = .next { s with res := if t.b0.getLsbD 5 then 0#32 else 1#32, status := ⟨.ok, false⟩ } ∧
    exec .ctIspub s = .next { s with res := if t.b1.getLsbD 5 then 0#32 else 1#32, status := ⟨.ok, false⟩ } ∧
    exec .ctIsrsv s = .next { s with res := if t.b2.getLsbD 5 then 0#32 else 1#32, status := ⟨.ok, false⟩ } ∧
    exec .ctIssafe s = .next { s with res := if t.b3.getLsbD 5 then 1#32 else 0#32, status := ⟨.ok, false⟩ } ∧
    exec .ctIsvalid s = .next { s with res := if ChunkType.alphabetic t ∧ t.b2.getLsbD 5 = false then 1#32 else 0#32, status := ⟨.ok, false⟩ }

/-- CRC.CALC, 41_crc32 R145. CRC.CALC is the spec's own decision D14; the parameters are its general knowledge G1 (log 6). -/
def Obligations.CrcCalcChecksumsTheInputBuffer : Prop :=
  encode .crcCalc = 0x000000000020#48 ∧
  (∀ s : State, s.status.f = false → exec .crcCalc s = .next { s with res := crc32 (inputBytes s), status := ⟨.ok, false⟩ }) ∧
  (∀ s : State, s.ibuf.length = 0 → crc32 (inputBytes s) = 0#32)

/-! ### The commands of the record unit -/

/-- CH.NEW, 42_chunk_record R162, R163. That a payload of more than 2^32 - 1 bytes ends with the fault LengthOverflow, and an empty TR with NoOperand, is the
spec's own decision D8. -/
def Obligations.ChNewBuildsAChunk : Prop :=
  encode .chNew = 0x000000000030#48 ∧
  (∀ (s : State) (t : ChunkType), s.status.f = false → s.tr = some t → s.ibuf.length ≤ 0xFFFFFFFF →
    exec .chNew s = .next { s with wc := some ⟨t, inputBytes s⟩, res := 0#32, status := ⟨.ok, false⟩ }) ∧
  (∀ (s : State) (t : ChunkType), s.status.f = false → s.tr = some t → 0xFFFFFFFF < s.ibuf.length →
    exec .chNew s = .next { s with status := ⟨.fault .lengthOverflow, true⟩ }) ∧
  (∀ s : State, s.status.f = false → s.tr = none → exec .chNew s = .next { s with status := ⟨.fault .noOperand, true⟩ })

/-- CH.PARSE, 42_chunk_record R166. -/
def Obligations.ChParseLoadsTheFirstRecord : Prop :=
  encode .chParse = 0x000000000031#48 ∧
  (∀ (s : State) (c : Chunk) (k : Nat), s.status.f = false → chunkParse (inputBytes s) = .ok (c, k) →
    exec .chParse s = .next { s with wc := some c, res := 0#32, status := ⟨.ok, false⟩ }) ∧
  (∀ (s : State) (e : ErrorKind), s.status.f = false → chunkParse (inputBytes s) = .error e →
    (e = .truncatedInput ∨ e = .invalidChunkType ∨ e = .invalidCrc) ∧
    exec .chParse s = .next { s with res := 0#32, status := ⟨.error e, false⟩ })

/-- CH.LEN, CH.TYPE, CH.CRC, 42_chunk_record R172, R173, R175: the accessors with a scalar result, for both subjects. The accessors are the spec's own
decision D13. -/
def Obligations.ScalarAccessorsReadTheSubject : Prop :=
  (∀ (sel : Subject) (arg : Word), encode (.chLen sel arg) = arg ++ (if sel = .entry then 0x0132#16 else 0x0032#16) ∧
    encode (.chType sel arg) = arg ++ (if sel = .entry then 0x0133#16 else 0x0033#16) ∧
    encode (.chCrc sel arg) = arg ++ (if sel = .entry then 0x0135#16 else 0x0035#16)) ∧
  (∀ (s : State) (sel : Subject) (arg : Word), s.status.f = false → (¬ ∃ c, isSubject sel arg s c) →
    ∀ i ∈ [Instr.chLen sel arg, .chType sel arg, .chCrc sel arg],
      exec i s = .next { s with status := ⟨.fault (if sel = .wc then .noOperand else .indexOutOfRange), true⟩ }) ∧
  ∀ (s : State) (sel : Subject) (arg : Word) (c : Chunk), s.status.f = false → isSubject sel arg s c →
    exec (.chLen sel arg) s = .next { s with res := BitVec.ofNat 32 c.data.length, status := ⟨.ok, false⟩ } ∧
    (s.Inv → (BitVec.ofNat 32 c.data.length).toNat = c.data.length) ∧
    exec (.chType sel arg) s = .next { s with tr := some c.type, res := be32 c.type, status := ⟨.ok, false⟩ } ∧
    exec (.chCrc sel arg) s = .next { s with res := crc32 (quadBytes c.type ++ c.data), status := ⟨.ok, false⟩ }

/-- CH.DATA, CH.DATASTR, CH.BYTES, 42_chunk_record R174, R176, R177: the accessors that fill the output buffer, for both subjects. `B` is what each hands
back. The accessors are the spec's own decisions D13 and D7. -/
def Obligations.BufferAccessorsWriteTheSubject : Prop :=
  (∀ (sel : Subject) (arg : Word), encode (.chData sel arg) = arg ++ (if sel = .entry then 0x0134#16 else 0x0034#16) ∧
    encode (.chDatastr sel arg) = arg ++ (if sel = .entry then 0x0136#16 else 0x0036#16) ∧
    encode (.chBytes sel arg) = arg ++ (if sel = .entry then 0x0137#16 else 0x0037#16)) ∧
  (∀ (s : State) (sel : Subject) (arg : Word), s.status.f = false → (¬ ∃ c, isSubject sel arg s c) →
    ∀ i ∈ [Instr.chData sel arg, .chDatastr sel arg, .chBytes sel arg],
      exec i s = .next { s with status := ⟨.fault (if sel = .wc then .noOperand else .indexOutOfRange), true⟩ }) ∧
  ∀ (s : State) (sel : Subject) (arg : Word) (c : Chunk), s.status.f = false → isSubject sel arg s c →
    ∀ p ∈ [(Instr.chData sel arg, c.data), (Instr.chDatastr sel arg, (c.data.map BitVec.toNat).flatMap utf8), (Instr.chBytes sel arg, chunkAsBytes c)],
      (fits s.params.obufCap p.2.length = true →
        ∃ u, exec p.1 s = .next u ∧ u = { s with obuf := u.obuf, res := 0#32, status := ⟨.ok, false⟩ } ∧
          u.obuf.bytes = p.2 ∧ u.obuf.length = p.2.length ∧ ∀ a, u.obuf.read a = p.2[a]?) ∧
      (fits s.params.obufCap p.2.length = false → exec p.1 s = .next { s with status := ⟨.fault .capacityExceeded, true⟩ })

/-! ### The commands of the container sequencer -/

/-- CO.PARSE, 43_container R202: all or nothing. -/
def Obligations.CoParseReplacesTheList : Prop :=
  encode .coParse = 0x000000000040#48 ∧
  (∀ (s : State) (list : List Chunk), s.status.f = false → containerParse (inputBytes s) = .ok list →
    list.length ≤ s.params.maxChunks.toNat →
    exec .coParse s = .next { s with cl := list, res := BitVec.ofNat 32 list.length, status := ⟨.ok, false⟩ } ∧
    (BitVec.ofNat 32 list.length).toNat = list.length) ∧
  (∀ (s : State) (list : List Chunk), s.status.f = false → containerParse (inputBytes s) = .ok list →
    s.params.maxChunks.toNat < list.length →
    exec .coParse s = .next { s with status := ⟨.fault .capacityExceeded, true⟩ }) ∧
  (∀ (s : State) (e : ErrorKind), s.status.f = false → containerParse (inputBytes s) = .error e →
    e ≠ .chunkNotFound ∧ exec .coParse s = .next { s with res := 0#32, status := ⟨.error e, false⟩ })

/-- CO.CLEAR and CO.COUNT, 43_container R210, R219. R210 and R219 are the spec's own decisions D4 and D13. -/
def Obligations.CoClearAndCoCount : Prop :=
  encode .coClear = 0x000000000041#48 ∧ encode .coCount = 0x000000000045#48 ∧
  (∀ s : State, s.status.f = false →
    exec .coClear s = .next { s with cl := [], res := 0#32, status := ⟨.ok, false⟩ } ∧
    exec .coCount s = .next { s with res := BitVec.ofNat 32 s.cl.length, status := ⟨.ok, false⟩ }) ∧
  (∀ s : State, s.Inv → (BitVec.ofNat 32 s.cl.length).toNat = s.cl.length)

/-- CO.APPEND, 43_container R212, R213: the chunk moves to the end of the list, whatever the list holds. -/
def Obligations.CoAppendMovesTheChunkIn : Prop :=
  encode .coAppend = 0x000000000042#48 ∧
  (∀ (s : State) (c : Chunk), s.status.f = false → s.wc = some c → s.cl.length ≠ s.params.maxChunks.toNat →
    exec .coAppend s = .next { s with cl := s.cl ++ [c], wc := none, res := BitVec.ofNat 32 s.cl.length, status := ⟨.ok, false⟩ }) ∧
  (∀ (s : State) (c : Chunk), s.status.f = false → s.wc = some c → s.cl.length = s.params.maxChunks.toNat →
    exec .coAppend s = .next { s with status := ⟨.fault .capacityExceeded, true⟩ }) ∧
  (∀ s : State, s.status.f = false → s.wc = none → exec .coAppend s = .next { s with status := ⟨.fault .noOperand, true⟩ })

/-- CO.REMOVE, 43_container R215, R216: the first match moves to WC, the others stay in order. That the chunk goes to WC and its index to
RES is the spec's own decision D16, and what an error leaves is its decision D12. -/
def Obligations.CoRemoveMovesTheFirstMatchOut : Prop :=
  encode .coRemove = 0x000000000043#48 ∧
  (∀ (s : State) (pre post : List Chunk) (c : Chunk), s.status.f = false → s.cl = pre ++ c :: post →
    typeMatch c (inputBytes s) = true → (∀ c' ∈ pre, typeMatch c' (inputBytes s) = false) →
    exec .coRemove s = .next { s with wc := some c, cl := pre ++ post, res := BitVec.ofNat 32 pre.length, status := ⟨.ok, false⟩ }) ∧
  (∀ s : State, s.status.f = false → (∀ c ∈ s.cl, typeMatch c (inputBytes s) = false) →
    exec .coRemove s = .next { s with res := 0#32, status := ⟨.error .chunkNotFound, false⟩ })

/-- CO.FIND, 43_container R217, R218: the index of the first match, or the length of the list. The index is the spec's own decision D13. -/
def Obligations.CoFindAnswersTheFirstMatch : Prop :=
  encode .coFind = 0x000000000044#48 ∧
  (∀ (s : State) (pre post : List Chunk) (c : Chunk), s.status.f = false → s.cl = pre ++ c :: post →
    typeMatch c (inputBytes s) = true → (∀ c' ∈ pre, typeMatch c' (inputBytes s) = false) →
    exec .coFind s = .next { s with res := BitVec.ofNat 32 pre.length, status := ⟨.ok, false⟩ }) ∧
  (∀ s : State, s.status.f = false → (∀ c ∈ s.cl, typeMatch c (inputBytes s) = false) →
    exec .coFind s = .next { s with res := BitVec.ofNat 32 s.cl.length, status := ⟨.ok, false⟩ })

/-- CO.BYTES, 43_container R209. -/
def Obligations.CoBytesSerializesTheList : Prop :=
  encode .coBytes = 0x000000000046#48 ∧
  (∀ s : State, s.status.f = false → fits s.params.obufCap (containerAsBytes s.cl).length = true →
    ∃ u, exec .coBytes s = .next u ∧ u = { s with obuf := u.obuf, res := BitVec.ofNat 32 s.cl.length, status := ⟨.ok, false⟩ } ∧
      u.obuf.bytes = containerAsBytes s.cl ∧ u.obuf.length = (containerAsBytes s.cl).length ∧ ∀ a, u.obuf.read a = (containerAsBytes s.cl)[a]?) ∧
  (∀ s : State, s.status.f = false → fits s.params.obufCap (containerAsBytes s.cl).length = false →
    exec .coBytes s = .next { s with status := ⟨.fault .capacityExceeded, true⟩ })

/-- 43_container R208 through the commands: CO.PARSE on what CO.BYTES wrote gives back the list. The host's copy of the output buffer to the input buffer
stands as the change of `ibuf` between the two. The copy by the host is written as a change of the field ibuf (the model's choice, log 1). -/
def Obligations.CoParseReadsBackWhatCoBytesWrote : Prop :=
  ∀ s t : State, s.Inv → s.status.f = false → exec .coBytes s = .next t → t.status.f = false →
    ∃ u, exec .coParse { t with ibuf := t.obuf } = .next u ∧ u.cl = s.cl ∧ u.status = ⟨.ok, false⟩ ∧ u.res.toNat = s.cl.length
end

