-- ==== Sys2Proof/Laws/Decode.lean ====
section
/-!
SUPPORT. Splitting and packing a command word are inverse, and what a word that decodes looks like.
-/

namespace Sys2Proof

/-- The fields of a packed word are the fields. -/
@[simp] theorem splitWord_packFields (f : Fields) : splitWord (packFields f) = f := by
  cases f
  simp only [splitWord, packFields, Fields.mk.injEq]
  refine ⟨?_, by simp only [BitVec.getLsbD_append]; simp, ?_, ?_⟩ <;>
    (apply BitVec.eq_of_getLsbD_eq
     intro k hk
     simp only [BitVec.getLsbD_extractLsb', BitVec.getLsbD_append]
     interval_cases k <;> simp)

/-- No bit of a word is lost by splitting it. -/
@[simp] theorem packFields_splitWord (w : CmdWord) : packFields (splitWord w) = w := by
  apply BitVec.eq_of_getLsbD_eq
  intro k hk
  simp only [splitWord, packFields, BitVec.getLsbD_append, BitVec.getLsbD_extractLsb', BitVec.getLsbD_ofBool]
  interval_cases k <;> simp

/-- A command of a shape has exactly the fields its format allows. -/
theorem decodeShape_eq_instr {f : Fields} {shape : Shape} {i : Instr} (h : decodeShape f shape = .instr i) :
    (∃ j, shape = .n j ∧ i = j ∧ f = fieldsN f.op) ∨
    (∃ mk, shape = .t mk ∧ i = mk f.arg ∧ f = fieldsT f.op f.arg) ∨
    (∃ mk sel, shape = .s mk ∧ i = mk sel f.arg ∧ f = fieldsS f.op sel f.arg) := by
  obtain ⟨op, s, rsv, arg⟩ := f
  cases shape with
  | n j => left; revert h; simp only [decodeShape]; split_ifs <;> simp_all [fieldsN]
  | t mk => right; left; revert h; simp only [decodeShape]; split_ifs <;> simp_all [fieldsT]
  | s mk =>
    right; right
    simp only [decodeShape] at h
    split_ifs at h <;> cases h
    · exact ⟨mk, .entry, rfl, rfl, by simp_all [fieldsS]⟩
    · exact ⟨mk, .wc, rfl, rfl, by simp_all [fieldsS]⟩

/-- A row of the opcode map that a lookup finds is a row of the map. -/
theorem mem_of_lookup_eq_some {op : BitVec 8} {shape : Shape} {rows : List (BitVec 8 × Shape)} (h : rows.lookup op = some shape) :
    (op, shape) ∈ rows := by
  induction rows with
  | nil => cases h
  | cons r rows ih =>
    obtain ⟨o, sh⟩ := r
    rw [List.lookup_cons] at h
    split at h
    · next he => simp_all
    · exact List.mem_cons_of_mem _ (ih h)

/-- What a word that decodes looks like: a row of the opcode map, with the fields of its shape. -/
theorem decode_eq_instr {w : CmdWord} {i : Instr} (h : decode w = .instr i) :
    ∃ shape, ((splitWord w).op, shape) ∈ opcodeMap ∧ decodeShape (splitWord w) shape = .instr i := by
  unfold decode decodeFields at h
  split at h
  · next shape hl => exact ⟨shape, mem_of_lookup_eq_some hl, h⟩
  · cases h

end Sys2Proof
end

