-- ==== Sys2Proof/Laws/State.lean ====
section
/-!
SUPPORT. One lemma per field per setter of Ops.lean: a setter writes its own field and leaves every other.
-/

namespace Sys2Proof.Machine

@[simp] theorem setTr_tr (s : State) (v : Option ChunkType) : (setTr s v).tr = v := rfl
@[simp] theorem setTr_wc (s : State) (v : Option ChunkType) : (setTr s v).wc = s.wc := rfl
@[simp] theorem setTr_cl (s : State) (v : Option ChunkType) : (setTr s v).cl = s.cl := rfl
@[simp] theorem setTr_res (s : State) (v : Option ChunkType) : (setTr s v).res = s.res := rfl
@[simp] theorem setTr_status (s : State) (v : Option ChunkType) : (setTr s v).status = s.status := rfl
@[simp] theorem setTr_ibuf (s : State) (v : Option ChunkType) : (setTr s v).ibuf = s.ibuf := rfl
@[simp] theorem setTr_obuf (s : State) (v : Option ChunkType) : (setTr s v).obuf = s.obuf := rfl
@[simp] theorem setTr_params (s : State) (v : Option ChunkType) : (setTr s v).params = s.params := rfl
@[simp] theorem setTr_port (s : State) (v : Option ChunkType) : (setTr s v).port = s.port := rfl

@[simp] theorem setWc_tr (s : State) (v : Option Chunk) : (setWc s v).tr = s.tr := rfl
@[simp] theorem setWc_wc (s : State) (v : Option Chunk) : (setWc s v).wc = v := rfl
@[simp] theorem setWc_cl (s : State) (v : Option Chunk) : (setWc s v).cl = s.cl := rfl
@[simp] theorem setWc_res (s : State) (v : Option Chunk) : (setWc s v).res = s.res := rfl
@[simp] theorem setWc_status (s : State) (v : Option Chunk) : (setWc s v).status = s.status := rfl
@[simp] theorem setWc_ibuf (s : State) (v : Option Chunk) : (setWc s v).ibuf = s.ibuf := rfl
@[simp] theorem setWc_obuf (s : State) (v : Option Chunk) : (setWc s v).obuf = s.obuf := rfl
@[simp] theorem setWc_params (s : State) (v : Option Chunk) : (setWc s v).params = s.params := rfl
@[simp] theorem setWc_port (s : State) (v : Option Chunk) : (setWc s v).port = s.port := rfl

@[simp] theorem setCl_tr (s : State) (v : List Chunk) : (setCl s v).tr = s.tr := rfl
@[simp] theorem setCl_wc (s : State) (v : List Chunk) : (setCl s v).wc = s.wc := rfl
@[simp] theorem setCl_cl (s : State) (v : List Chunk) : (setCl s v).cl = v := rfl
@[simp] theorem setCl_res (s : State) (v : List Chunk) : (setCl s v).res = s.res := rfl
@[simp] theorem setCl_status (s : State) (v : List Chunk) : (setCl s v).status = s.status := rfl
@[simp] theorem setCl_ibuf (s : State) (v : List Chunk) : (setCl s v).ibuf = s.ibuf := rfl
@[simp] theorem setCl_obuf (s : State) (v : List Chunk) : (setCl s v).obuf = s.obuf := rfl
@[simp] theorem setCl_params (s : State) (v : List Chunk) : (setCl s v).params = s.params := rfl
@[simp] theorem setCl_port (s : State) (v : List Chunk) : (setCl s v).port = s.port := rfl

@[simp] theorem setRes_tr (s : State) (v : Word) : (setRes s v).tr = s.tr := rfl
@[simp] theorem setRes_wc (s : State) (v : Word) : (setRes s v).wc = s.wc := rfl
@[simp] theorem setRes_cl (s : State) (v : Word) : (setRes s v).cl = s.cl := rfl
@[simp] theorem setRes_res (s : State) (v : Word) : (setRes s v).res = v := rfl
@[simp] theorem setRes_status (s : State) (v : Word) : (setRes s v).status = s.status := rfl
@[simp] theorem setRes_ibuf (s : State) (v : Word) : (setRes s v).ibuf = s.ibuf := rfl
@[simp] theorem setRes_obuf (s : State) (v : Word) : (setRes s v).obuf = s.obuf := rfl
@[simp] theorem setRes_params (s : State) (v : Word) : (setRes s v).params = s.params := rfl
@[simp] theorem setRes_port (s : State) (v : Word) : (setRes s v).port = s.port := rfl

@[simp] theorem setStatus_tr (s : State) (v : Status) : (setStatus s v).tr = s.tr := rfl
@[simp] theorem setStatus_wc (s : State) (v : Status) : (setStatus s v).wc = s.wc := rfl
@[simp] theorem setStatus_cl (s : State) (v : Status) : (setStatus s v).cl = s.cl := rfl
@[simp] theorem setStatus_res (s : State) (v : Status) : (setStatus s v).res = s.res := rfl
@[simp] theorem setStatus_status (s : State) (v : Status) : (setStatus s v).status = v := rfl
@[simp] theorem setStatus_ibuf (s : State) (v : Status) : (setStatus s v).ibuf = s.ibuf := rfl
@[simp] theorem setStatus_obuf (s : State) (v : Status) : (setStatus s v).obuf = s.obuf := rfl
@[simp] theorem setStatus_params (s : State) (v : Status) : (setStatus s v).params = s.params := rfl
@[simp] theorem setStatus_port (s : State) (v : Status) : (setStatus s v).port = s.port := rfl

@[simp] theorem setIbuf_tr (s : State) (v : Memory) : (setIbuf s v).tr = s.tr := rfl
@[simp] theorem setIbuf_wc (s : State) (v : Memory) : (setIbuf s v).wc = s.wc := rfl
@[simp] theorem setIbuf_cl (s : State) (v : Memory) : (setIbuf s v).cl = s.cl := rfl
@[simp] theorem setIbuf_res (s : State) (v : Memory) : (setIbuf s v).res = s.res := rfl
@[simp] theorem setIbuf_status (s : State) (v : Memory) : (setIbuf s v).status = s.status := rfl
@[simp] theorem setIbuf_ibuf (s : State) (v : Memory) : (setIbuf s v).ibuf = v := rfl
@[simp] theorem setIbuf_obuf (s : State) (v : Memory) : (setIbuf s v).obuf = s.obuf := rfl
@[simp] theorem setIbuf_params (s : State) (v : Memory) : (setIbuf s v).params = s.params := rfl
@[simp] theorem setIbuf_port (s : State) (v : Memory) : (setIbuf s v).port = s.port := rfl

@[simp] theorem setObuf_tr (s : State) (v : Memory) : (setObuf s v).tr = s.tr := rfl
@[simp] theorem setObuf_wc (s : State) (v : Memory) : (setObuf s v).wc = s.wc := rfl
@[simp] theorem setObuf_cl (s : State) (v : Memory) : (setObuf s v).cl = s.cl := rfl
@[simp] theorem setObuf_res (s : State) (v : Memory) : (setObuf s v).res = s.res := rfl
@[simp] theorem setObuf_status (s : State) (v : Memory) : (setObuf s v).status = s.status := rfl
@[simp] theorem setObuf_ibuf (s : State) (v : Memory) : (setObuf s v).ibuf = s.ibuf := rfl
@[simp] theorem setObuf_obuf (s : State) (v : Memory) : (setObuf s v).obuf = v := rfl
@[simp] theorem setObuf_params (s : State) (v : Memory) : (setObuf s v).params = s.params := rfl
@[simp] theorem setObuf_port (s : State) (v : Memory) : (setObuf s v).port = s.port := rfl

@[simp] theorem setPort_tr (s : State) (v : List HostEvent) : (setPort s v).tr = s.tr := rfl
@[simp] theorem setPort_wc (s : State) (v : List HostEvent) : (setPort s v).wc = s.wc := rfl
@[simp] theorem setPort_cl (s : State) (v : List HostEvent) : (setPort s v).cl = s.cl := rfl
@[simp] theorem setPort_res (s : State) (v : List HostEvent) : (setPort s v).res = s.res := rfl
@[simp] theorem setPort_status (s : State) (v : List HostEvent) : (setPort s v).status = s.status := rfl
@[simp] theorem setPort_ibuf (s : State) (v : List HostEvent) : (setPort s v).ibuf = s.ibuf := rfl
@[simp] theorem setPort_obuf (s : State) (v : List HostEvent) : (setPort s v).obuf = s.obuf := rfl
@[simp] theorem setPort_params (s : State) (v : List HostEvent) : (setPort s v).params = s.params := rfl
@[simp] theorem setPort_port (s : State) (v : List HostEvent) : (setPort s v).port = v := rfl

@[simp] theorem setEc_tr (s : State) (c : Code) : (setEc s c).tr = s.tr := rfl
@[simp] theorem setEc_wc (s : State) (c : Code) : (setEc s c).wc = s.wc := rfl
@[simp] theorem setEc_cl (s : State) (c : Code) : (setEc s c).cl = s.cl := rfl
@[simp] theorem setEc_res (s : State) (c : Code) : (setEc s c).res = s.res := rfl
@[simp] theorem setEc_ibuf (s : State) (c : Code) : (setEc s c).ibuf = s.ibuf := rfl
@[simp] theorem setEc_obuf (s : State) (c : Code) : (setEc s c).obuf = s.obuf := rfl
@[simp] theorem setEc_params (s : State) (c : Code) : (setEc s c).params = s.params := rfl
@[simp] theorem setEc_port (s : State) (c : Code) : (setEc s c).port = s.port := rfl
@[simp] theorem setEc_status (s : State) (c : Code) : (setEc s c).status = ⟨c, s.status.f⟩ := rfl

end Sys2Proof.Machine
end

