-- ==== Sys2Proof/Laws/Ops.lean ====
section
/-!
SUPPORT. What the shared operations can do, said once each: the byte memories keep their canonical form, big-endian numbers and their bytes, bounds-checked
reads, and how a command ends.
-/

namespace Sys2Proof.Machine

/-! ### The byte memories -/

theorem cellsFrom_bytes (B : List Byte) (a : Nat) : (cellsFrom a B).map Prod.snd = B := by
  induction B generalizing a with
  | nil => rfl
  | cons b B ih => simp [cellsFrom, ih]

theorem cellsFrom_offsets (B : List Byte) (a : Nat) : (cellsFrom a B).map Prod.fst = List.range' a B.length := by
  induction B generalizing a with
  | nil => rfl
  | cons b B ih => simp [cellsFrom, ih, List.range'_succ]

@[simp] theorem cellsFrom_length (B : List Byte) (a : Nat) : (cellsFrom a B).length = B.length := by
  simpa using congrArg List.length (cellsFrom_bytes B a)

@[simp] theorem bytes_ofBytes (B : List Byte) : (Memory.ofBytes B).bytes = B := cellsFrom_bytes B 0

@[simp] theorem length_ofBytes (B : List Byte) : (Memory.ofBytes B).length = B.length := cellsFrom_length B 0

/-- Writing a whole buffer gives the canonical form. -/
@[simp] theorem wf_ofBytes (B : List Byte) : (Memory.ofBytes B).wf = true := by
  simp [Memory.wf, Memory.ofBytes, cellsFrom_offsets, List.range_eq_range']

@[simp] theorem wf_empty : Memory.wf ⟨[]⟩ = true := rfl

theorem cellsFrom_lookup (B : List Byte) (a k : Nat) : (cellsFrom a B).lookup (a + k) = B[k]? := by
  induction B generalizing a k with
  | nil => rfl
  | cons b B ih =>
    cases k with
    | zero => simp [cellsFrom]
    | succ k =>
      have h : (a + (k + 1) == a) = false := by simp
      rw [cellsFrom, List.lookup_cons, h]
      simpa [Nat.add_assoc, Nat.add_comm 1 k] using ih (a + 1) k

/-- After a whole-buffer write, an offset reads as the byte written there, and no other offset is valid. -/
@[simp] theorem read_ofBytes (B : List Byte) (a : Nat) : (Memory.ofBytes B).read a = B[a]? := by
  simpa [Memory.read, Memory.ofBytes] using cellsFrom_lookup B 0 a

/-- In canonical form a memory is the one its bytes make: equal contents are equal data. -/
theorem ofBytes_bytes {m : Memory} (h : m.wf = true) : Memory.ofBytes m.bytes = m := by
  have key : ∀ (l : List Host.Cell) (a : Nat), l.map Prod.fst = List.range' a l.length → cellsFrom a (l.map Prod.snd) = l := by
    intro l
    induction l with
    | nil => intros; rfl
    | cons c l ih =>
      intro a hc
      simp only [List.map_cons, List.length_cons, List.range'_succ, List.cons.injEq] at hc
      obtain ⟨rfl, hl⟩ := hc
      simp [cellsFrom, ih _ hl]
  have h' : m.cells.map Prod.fst = List.range' 0 m.cells.length := by
    simpa [Memory.wf, List.range_eq_range'] using h
  simp only [Memory.ofBytes, Memory.bytes, key m.cells 0 h']

/-- In canonical form an offset is valid exactly below the length, and reads as the byte at its position (20_memory R51). -/
theorem read_eq_bytes {m : Memory} (h : m.wf = true) (a : Nat) : m.read a = m.bytes[a]? := by
  rw [← ofBytes_bytes h, read_ofBytes, bytes_ofBytes]

@[simp] theorem bytes_length (m : Memory) : m.bytes.length = m.length := by
  simp [Memory.bytes, Memory.length]

/-- The operand of a command that reads the input buffer is its whole content. -/
theorem inputBytes_eq (s : State) : inputBytes s = s.ibuf.bytes := by
  simp [inputBytes, memRead, slice]

@[simp] theorem inputBytes_length (s : State) : (inputBytes s).length = s.ibuf.length := by
  simp [inputBytes_eq]

/-! ### Byte strings -/

@[simp] theorem quadBytes_length (q : Quad) : (quadBytes q).length = 4 := rfl

theorem quadBytes_inj {p q : Quad} (h : quadBytes p = quadBytes q) : p = q := by
  cases p
  cases q
  simpa [quadBytes] using h

/-- A four-byte string is the bytes of a quad. -/
theorem exists_quadBytes {B : List Byte} (h : B.length = 4) : ∃ q, B = quadBytes q := by
  match B, h with
  | [b0, b1, b2, b3], _ => exact ⟨⟨b0, b1, b2, b3⟩, rfl⟩

theorem quadAt_eq_some {B : List Byte} {off : Nat} {q : Quad} : quadAt B off = some q ↔ slice B off 4 = quadBytes q := by
  unfold quadAt
  split
  · next b0 b1 b2 b3 h => cases q; simp [h, quadBytes]
  · next h => constructor
              · simp
              · intro e; exact absurd e (h _ _ _ _)

theorem quadAt_eq_none {B : List Byte} {off : Nat} : quadAt B off = none ↔ B.length < off + 4 := by
  constructor
  · intro h
    by_contra hlt
    obtain ⟨q, hq⟩ := exists_quadBytes (B := slice B off 4) (by simp [slice]; omega)
    rw [quadAt_eq_some.mpr hq] at h
    cases h
  · intro h
    cases hq : quadAt B off with
    | none => rfl
    | some q =>
      have := congrArg List.length (quadAt_eq_some.mp hq)
      simp [slice] at this
      omega

/-- A field that lies behind `X` reads as the quad written there. -/
theorem quadAt_append {X Y : List Byte} {q : Quad} {off : Nat} (h : X.length = off) : quadAt (X ++ quadBytes q ++ Y) off = some q := by
  subst h
  rw [quadAt_eq_some]
  simp [slice, quadBytes]

theorem slice_append {X D Y : List Byte} {off n : Nat} (h : X.length = off) (hd : D.length = n) : slice (X ++ D ++ Y) off n = D := by
  subst h
  subst hd
  simp [slice]

theorem slice_length {B : List Byte} {off n : Nat} (h : off + n ≤ B.length) : (slice B off n).length = n := by
  simp [slice]
  omega

/-! ### Big-endian numbers -/

@[simp] theorem toBe32_be32 (q : Quad) : toBe32 (be32 q) = q := by
  cases q
  simp only [toBe32, be32, Quad.mk.injEq]
  refine ⟨?_, ?_, ?_, ?_⟩ <;>
    (apply BitVec.eq_of_getLsbD_eq
     intro k hk
     simp only [BitVec.getLsbD_extractLsb', BitVec.getLsbD_append]
     interval_cases k <;> simp)

@[simp] theorem be32_toBe32 (v : Word) : be32 (toBe32 v) = v := by
  apply BitVec.eq_of_getLsbD_eq
  intro k hk
  simp only [be32, toBe32, BitVec.getLsbD_append, BitVec.getLsbD_extractLsb']
  interval_cases k <;> simp

theorem be32_inj {p q : Quad} (h : be32 p = be32 q) : p = q := by
  rw [← toBe32_be32 p, ← toBe32_be32 q, h]

theorem toBe32_inj {v w : Word} (h : toBe32 v = toBe32 w) : v = w := by
  rw [← be32_toBe32 v, ← be32_toBe32 w, h]

/-! ### How a command ends -/

theorem accept_of_running {s : State} (h : s.status.f = false) (k : Result) : accept s k = k := by
  simp [accept, h]

theorem accept_of_faulted {s : State} (h : s.status.f = true) (k : Result) : accept s k = .next s := by
  simp [accept, h]

/-- A command is refused and changes nothing, or it does what it does. -/
theorem accept_eq_next {s t : State} {k : Result} (h : accept s k = .next t) :
    (s.status.f = true ∧ t = s) ∨ (s.status.f = false ∧ k = .next t) := by
  unfold accept at h
  split at h
  · next hf => left; exact ⟨hf, by injection h with h; exact h.symm⟩
  · next hf => right; exact ⟨by simpa using hf, h⟩

theorem respond_eq_next {s t : State} {v : Word} : respond s v = .next t ↔ t = setEc (setRes s v) .ok := by
  simp [respond, eq_comm]

theorem raiseError_eq_next {s t : State} {e : ErrorKind} : raiseError s e = .next t ↔ t = setEc (setRes s 0#32) (.error e) := by
  simp [raiseError, eq_comm]

theorem takeFault_eq_next {s t : State} {r : FaultReason} : takeFault s r = .next t ↔ t = setStatus s ⟨.fault r, true⟩ := by
  simp [takeFault, eq_comm]

/-- A whole-buffer write that fits responds; one that does not is a fault and writes nothing. -/
theorem emit_eq_next {s t : State} {B : List Byte} {v : Word} : emit s B v = .next t ↔
    (fits s.params.obufCap B.length = true ∧ t = setEc (setRes (setObuf s (Memory.ofBytes B)) v) .ok) ∨
    (fits s.params.obufCap B.length = false ∧ t = setStatus s ⟨.fault .capacityExceeded, true⟩) := by
  unfold emit
  split <;> simp_all [respond_eq_next, takeFault_eq_next]

theorem withType_eq_next {s t : State} {k : ChunkType → Result} : withType s k = .next t ↔
    (s.tr = none ∧ t = setStatus s ⟨.fault .noOperand, true⟩) ∨ ∃ q, s.tr = some q ∧ k q = .next t := by
  unfold withType
  split <;> simp_all [takeFault_eq_next]

theorem withWorkingChunk_eq_next {s t : State} {k : Chunk → Result} : withWorkingChunk s k = .next t ↔
    (s.wc = none ∧ t = setStatus s ⟨.fault .noOperand, true⟩) ∨ ∃ c, s.wc = some c ∧ k c = .next t := by
  unfold withWorkingChunk
  split <;> simp_all [takeFault_eq_next]

/-- What a subject is: WC, or the entry at the index (30_encoding R89). -/
theorem subject_eq_ok {sel : Subject} {arg : Word} {s : State} {c : Chunk} : subject sel arg s = .ok c ↔
    (sel = .wc ∧ s.wc = some c) ∨ (sel = .entry ∧ s.cl[arg.toNat]? = some c) := by
  unfold subject
  cases sel
  · cases s.wc <;> simp
  · cases h : s.cl[arg.toNat]? <;> simp

/-- When there is no subject, and which fault that is. -/
theorem subject_eq_error {sel : Subject} {arg : Word} {s : State} {r : FaultReason} : subject sel arg s = .error r ↔
    (sel = .wc ∧ s.wc = none ∧ r = .noOperand) ∨ (sel = .entry ∧ s.cl.length ≤ arg.toNat ∧ r = .indexOutOfRange) := by
  unfold subject
  cases sel
  · cases s.wc <;> simp [eq_comm]
  · cases h : s.cl[arg.toNat]? with
    | none => simp [List.getElem?_eq_none_iff.mp h, eq_comm]
    | some c =>
      have : arg.toNat < s.cl.length := (List.getElem?_eq_some_iff.mp h).1
      simp; omega

theorem withSubject_eq_next {sel : Subject} {arg : Word} {s t : State} {k : Chunk → Result} : withSubject sel arg s k = .next t ↔
    (∃ r, subject sel arg s = .error r ∧ t = setStatus s ⟨.fault r, true⟩) ∨ ∃ c, subject sel arg s = .ok c ∧ k c = .next t := by
  unfold withSubject
  split <;> simp_all [takeFault_eq_next]

end Sys2Proof.Machine
end

