-- ==== Sys2Proof/Laws/PerInstr.lean ====
section
/-!
SUPPORT. The family Legal: the word of every command passes the checks of 30_encoding R91, one lemma per constructor.
-/

namespace Sys2Proof.Laws.Legal

/-- The command's word is legal (30_encoding R91). -/
def Statement (i : Instr) : Prop := i.wellFormed = true

/-- A format-N word is legal. -/
theorem legal_of_n {op : BitVec 8} (h : opcodeFormat op = some .n) : (fieldsN op).legal = true := by
  simp [Fields.legal, Fields.opcodeOk, Fields.reservedOk, Fields.subjectOk, Fields.argumentOk, fieldsN, h]

/-- A format-T word is legal for every argument. -/
theorem legal_of_t {op : BitVec 8} (h : opcodeFormat op = some .t) (arg : Word) : (fieldsT op arg).legal = true := by
  simp [Fields.legal, Fields.opcodeOk, Fields.reservedOk, Fields.subjectOk, Fields.argumentOk, fieldsT, h]

/-- A format-S word is legal for every subject and argument. -/
theorem legal_of_s {op : BitVec 8} (h : opcodeFormat op = some .s) (sel : Subject) (arg : Word) : (fieldsS op sel arg).legal = true := by
  simp [Fields.legal, Fields.opcodeOk, Fields.reservedOk, Fields.subjectOk, Fields.argumentOk, fieldsS, h]

theorem ctParse (arg : Word) : Statement (.ctParse arg) := legal_of_t (by decide) arg
theorem ctParsestr : Statement .ctParsestr := legal_of_n (by decide)
theorem ctBytes : Statement .ctBytes := legal_of_n (by decide)
theorem ctTostr : Statement .ctTostr := legal_of_n (by decide)
theorem ctIscrit : Statement .ctIscrit := legal_of_n (by decide)
theorem ctIspub : Statement .ctIspub := legal_of_n (by decide)
theorem ctIsrsv : Statement .ctIsrsv := legal_of_n (by decide)
theorem ctIssafe : Statement .ctIssafe := legal_of_n (by decide)
theorem ctIsvalid : Statement .ctIsvalid := legal_of_n (by decide)
theorem crcCalc : Statement .crcCalc := legal_of_n (by decide)
theorem chNew : Statement .chNew := legal_of_n (by decide)
theorem chParse : Statement .chParse := legal_of_n (by decide)
theorem chLen (sel : Subject) (arg : Word) : Statement (.chLen sel arg) := legal_of_s (by decide) sel arg
theorem chType (sel : Subject) (arg : Word) : Statement (.chType sel arg) := legal_of_s (by decide) sel arg
theorem chData (sel : Subject) (arg : Word) : Statement (.chData sel arg) := legal_of_s (by decide) sel arg
theorem chCrc (sel : Subject) (arg : Word) : Statement (.chCrc sel arg) := legal_of_s (by decide) sel arg
theorem chDatastr (sel : Subject) (arg : Word) : Statement (.chDatastr sel arg) := legal_of_s (by decide) sel arg
theorem chBytes (sel : Subject) (arg : Word) : Statement (.chBytes sel arg) := legal_of_s (by decide) sel arg
theorem coParse : Statement .coParse := legal_of_n (by decide)
theorem coClear : Statement .coClear := legal_of_n (by decide)
theorem coAppend : Statement .coAppend := legal_of_n (by decide)
theorem coRemove : Statement .coRemove := legal_of_n (by decide)
theorem coFind : Statement .coFind := legal_of_n (by decide)
theorem coCount : Statement .coCount := legal_of_n (by decide)
theorem coBytes : Statement .coBytes := legal_of_n (by decide)

end Sys2Proof.Laws.Legal
end

