-- ==== Sys2Proof/Laws/Record.lean ====
section
/-!
SUPPORT. What the record parser and the stream parser can answer, said once each.
-/

namespace Sys2Proof.Machine

/-- A string of at least `n + 4` bytes has a quad behind its first `n`. -/
theorem split_quad {B : List Byte} {n : Nat} {q : Quad} (h : quadAt B n = some q) :
    B = B.take n ++ (quadBytes q ++ B.drop (n + 4)) := by
  have hs := quadAt_eq_some.mp h
  rw [slice] at hs
  rw [← hs, ← List.drop_drop, List.take_append_drop, List.take_append_drop]

/-- What a chunk value is (10_state R21, R22). -/
theorem chunk_ok_iff {c : Chunk} : c.ok = true ↔ ChunkType.alphabetic c.type = true ∧ c.data.length ≤ 0xFFFFFFFF := by
  simp [Chunk.ok]

/-- What a parsed record looks like: its four fields, then the bytes that are not examined (42_chunk_record R164, R167). -/
theorem chunkParse_eq_ok {B : List Byte} {r : Chunk × Nat} (h : chunkParse B = .ok r) :
    ∃ (len crc : Quad) (tail : List Byte),
      B = quadBytes len ++ quadBytes r.1.type ++ r.1.data ++ quadBytes crc ++ tail ∧
      r.1.data.length = (be32 len).toNat ∧ ChunkType.alphabetic r.1.type = true ∧
      crc32 (quadBytes r.1.type ++ r.1.data) = be32 crc ∧ r.2 = 12 + r.1.data.length := by
  unfold chunkParse at h
  split at h
  · cases h
  · next len hlen =>
    split at h
    · cases h
    · next hn =>
      split at h
      · next t crc ht hcrc =>
        split at h
        · cases h
        · next ha =>
          split at h
          · cases h
          · next hc =>
            cases h
            have hl : (slice B 8 (be32 len).toNat).length = (be32 len).toNat := slice_length (by omega)
            refine ⟨len, crc, B.drop (8 + (be32 len).toNat + 4), ?_, hl, by simpa using ha, not_not.mp hc, by rw [hl]⟩
            have e0 : B = quadBytes len ++ B.drop 4 := by simpa using split_quad hlen
            have e1 : B.drop 4 = quadBytes t ++ B.drop 8 := by
              have := congrArg (List.drop 4) (split_quad ht)
              rw [this, List.drop_append_of_le_length (by simp; omega)]
              simp
            have e2 : B.drop 8 = slice B 8 (be32 len).toNat ++ B.drop (8 + (be32 len).toNat) := by
              rw [slice, ← List.drop_drop, List.take_append_drop]
            have e3 : B.drop (8 + (be32 len).toNat) = quadBytes crc ++ B.drop (8 + (be32 len).toNat + 4) := by
              have := quadAt_eq_some.mp hcrc
              rw [slice] at this
              rw [← this, ← List.drop_drop (i := 4), List.take_append_drop]
            calc B = quadBytes len ++ B.drop 4 := e0
              _ = _ := by rw [e1, e2, e3]; simp
      · cases h

/-- A parsed record has consumed at least 12 bytes, and no more than there are (43_container R203). -/
theorem chunkParse_consumed {B : List Byte} {r : Chunk × Nat} (h : chunkParse B = .ok r) : 12 ≤ r.2 ∧ r.2 ≤ B.length := by
  obtain ⟨len, crc, tail, hB, -, -, -, hk⟩ := chunkParse_eq_ok h
  have := congrArg List.length hB
  simp at this
  omega

/-- A parsed chunk is a chunk value (10_state R22, R23). -/
theorem chunkParse_ok_chunk {B : List Byte} {r : Chunk × Nat} (h : chunkParse B = .ok r) : r.1.ok = true := by
  obtain ⟨len, crc, tail, -, hl, ha, -, -⟩ := chunkParse_eq_ok h
  have := (be32 len).isLt
  exact chunk_ok_iff.mpr ⟨ha, by omega⟩

/-- The errors of the record parser (42_chunk_record R164). -/
theorem chunkParse_eq_error {B : List Byte} {e : ErrorKind} (h : chunkParse B = .error e) :
    e = .truncatedInput ∨ e = .invalidChunkType ∨ e = .invalidCrc := by
  revert h
  unfold chunkParse
  repeat' split
  all_goals simp [eq_comm]
  all_goals (intro h; simp [h])

/-- One iteration of the stream loop. -/
theorem parseRecords_succ {fuel : Nat} {B : List Byte} (h : B ≠ []) :
    parseRecords (fuel + 1) B =
      match chunkParse B with
      | .error e => .error e
      | .ok r =>
        match parseRecords fuel (B.drop r.2) with
        | .error e => .error e
        | .ok list => .ok (r.1 :: list) := by
  exact if_neg (by simpa using h)

@[simp] theorem parseRecords_nil (fuel : Nat) : parseRecords fuel [] = .ok [] := by
  cases fuel <;> rfl

/-- The errors of the stream loop are those of the record parser (43_container R201). -/
theorem parseRecords_eq_error {fuel : Nat} {B : List Byte} {e : ErrorKind} (h : parseRecords fuel B = .error e) :
    e = .truncatedInput ∨ e = .invalidChunkType ∨ e = .invalidCrc := by
  induction fuel generalizing B with
  | zero => cases h
  | succ fuel ih =>
    by_cases hB : B = []
    · simp [hB] at h
    · rw [parseRecords_succ hB] at h
      split at h
      · next h' => cases h; exact chunkParse_eq_error h'
      · split at h
        · next h' => cases h; exact ih h'
        · cases h

/-- With enough fuel the loop answers what one iteration and the rest answer: the fuel is no part of the result (log 12). -/
theorem parseRecords_fuel {fuel fuel' : Nat} {B : List Byte} (h : B.length ≤ fuel) (h' : B.length ≤ fuel') :
    parseRecords fuel B = parseRecords fuel' B := by
  induction fuel generalizing fuel' B with
  | zero => obtain rfl : B = [] := List.length_eq_zero_iff.mp (by omega); simp
  | succ fuel ih =>
    by_cases hB : B = []
    · simp [hB]
    · have hpos : 0 < B.length := List.length_pos_iff.mpr hB
      obtain ⟨fuel', rfl⟩ : ∃ m, fuel' = m + 1 := ⟨fuel' - 1, by omega⟩
      rw [parseRecords_succ hB, parseRecords_succ hB]
      cases hc : chunkParse B with
      | error e => rfl
      | ok r =>
        have := chunkParse_consumed hc
        have hr : parseRecords fuel (B.drop r.2) = parseRecords fuel' (B.drop r.2) := ih (by simp; omega) (by simp; omega)
        simp only [hr]

end Sys2Proof.Machine
end

