-- ==== Sys2Proof/Laws/Safety.lean ====
section
/-!
SUPPORT. The subject and the produced bytes that statements name (Safety.lean) are those the meanings compute with, and neither they nor a write of the output
buffer depends on what the output buffer held (20_memory R57).
-/

namespace Sys2Proof.Machine

/-- The subject a statement names is the one a meaning reads. -/
theorem subject_eq_ok_iff {sel : Subject} {arg : Word} {s : State} {c : Chunk} :
    subject sel arg s = .ok c ↔ subjectOf sel arg s = some c := by
  rw [subject_eq_ok]
  cases sel <;> simp [subjectOf]

/-- The two ways a statement names a subject agree. -/
theorem isSubject_iff {sel : Subject} {arg : Word} {s : State} {c : Chunk} : isSubject sel arg s c ↔ subjectOf sel arg s = some c := by
  cases sel <;> rfl

@[simp] theorem subjectOf_obuf (sel : Subject) (arg : Word) (s : State) (old : Memory) :
    subjectOf sel arg { s with obuf := old } = subjectOf sel arg s := by
  cases sel <;> rfl

/-- What a command produces does not depend on the output buffer. -/
@[simp] theorem outputOf_obuf (i : Instr) (s : State) (old : Memory) : outputOf i { s with obuf := old } = outputOf i s := by
  cases i <;> simp [outputOf]

/-- A whole-buffer write that succeeds leaves the same state for every old content. -/
theorem emit_obuf {s t : State} {B : List Byte} {v : Word} (h : emit s B v = .next t) (ht : t.status.ec = .ok) (old : Memory) :
    emit { s with obuf := old } B v = .next t := by
  rcases emit_eq_next.mp h with ⟨hc, rfl⟩ | ⟨-, rfl⟩
  · exact emit_eq_next.mpr (.inl ⟨hc, rfl⟩)
  · cases ht

end Sys2Proof.Machine
end

