-- ==== Sys2Proof/Tests/Slice0.lean ====
section
/-!
SUPPORT. The model's own tests: expected values from spec/95_test_vectors.md (V-...) and from the rules named, each about one step on a small state. Then, for every
statement with hypotheses, a witness that meets them.
-/

namespace Sys2Proof.Tests

open Sys2Proof Sys2Proof.Machine

/-- The state a result goes to, where it goes on. -/
def after : Result → Option State
  | .next t => some t
  | .fault _ => none
  | .refused _ => none

theorem next_of_after {r : Result} {t : State} (h : after r = some t) : r = .next t := by
  cases r <;> simp_all [after]

/-- What the host reads after a command: STATUS and RES. -/
def answer (r : Result) : Option (BitVec 8 × Word) := (after r).map fun t => (statusWord t.status, t.res)

/-- What the host reads from the output buffer after a command. -/
def output (r : Result) : Option (List Byte) := (after r).map fun t => t.obuf.bytes

/-- `s` with the host's bytes in the input buffer. -/
def withInput (B : List Byte) (s : State) : State := setIbuf s (Memory.ofBytes B)

/-- `s` with one move of the host waiting. -/
def withMove (e : HostEvent) (s : State) : State := setPort s [e]

/-- The type of the string RuSt. -/
def ruSt : Quad := ⟨0x52, 0x75, 0x53, 0x74⟩

/-- The type of the string teSt. -/
def teSt : Quad := ⟨0x74, 0x65, 0x53, 0x74⟩

/-- The type of the string miDl. -/
def miDl : Quad := ⟨0x6D, 0x69, 0x44, 0x6C⟩

/-- The bytes of the string miDl. -/
def miDlBytes : List Byte := [0x6D, 0x69, 0x44, 0x6C]

/-- The chunk of V-A1 to V-A6. -/
def chunkA : Chunk := ⟨teSt, [0x48, 0x69, 0xFF, 0x00, 0x80]⟩

/-- The list of V-S10 and V-S11: types FrSt, miDl, miDl, LASt, payloads one, two, three, four. -/
def list4 : List Chunk := [
  ⟨⟨0x46, 0x72, 0x53, 0x74⟩, [0x6F, 0x6E, 0x65]⟩,
  ⟨miDl, [0x74, 0x77, 0x6F]⟩,
  ⟨miDl, [0x74, 0x68, 0x72, 0x65, 0x65]⟩,
  ⟨⟨0x4C, 0x41, 0x53, 0x74⟩, [0x66, 0x6F, 0x75, 0x72]⟩]

/-- A running state with every register filled. -/
def base : State :=
  { State.reset with tr := some ruSt, wc := some chunkA, cl := list4, res := 7#32, ibuf := Memory.ofBytes miDlBytes, obuf := Memory.ofBytes [0x01] }

/-- `base` after a protocol fault. -/
def faulted : State := setStatus base ⟨.fault .noOperand, true⟩

/-- `base` where every capacity is as small as its content allows. -/
def tight : State := { base with params := ⟨some 4, some 3, 4#32⟩ }

/-- `base` with nothing in TR, WC and CL. -/
def bare : State := { base with tr := none, wc := none, cl := [] }

/-- The record of V-P6: type RuSt, payload Hi. -/
def record6 : List Byte := [0x00, 0x00, 0x00, 0x02, 0x52, 0x75, 0x53, 0x74, 0x48, 0x69, 0x47, 0x38, 0x1B, 0xD1]

/-- The record of V-P5: type IEND, no payload. -/
def record5 : List Byte := [0x00, 0x00, 0x00, 0x00, 0x49, 0x45, 0x4E, 0x44, 0xAE, 0x42, 0x60, 0x82]

/-- The signature as 30_encoding R80 prints it. -/
def sigBytes : List Byte := [0x89, 0x50, 0x4E, 0x47, 0x0D, 0x0A, 0x1A, 0x0A]

/-! ### Well-formedness: a term that each check refuses (30_encoding R91) -/

/-- V-E3: opcode 0x19 is outside the map. -/
theorem test_illformed_opcode : Fields.opcodeOk ⟨0x19#8, false, 0#7, 0#32⟩ = false ∧ Fields.legal ⟨0x19#8, false, 0#7, 0#32⟩ = false := by decide

/-- V-E6: CO.COUNT with bit 9 set. -/
theorem test_illformed_reserved : Fields.reservedOk ⟨0x45#8, false, 1#7, 0#32⟩ = false ∧ Fields.legal ⟨0x45#8, false, 1#7, 0#32⟩ = false := by decide

/-- V-E8, V-E10: s = 1 in format N and in format T. -/
theorem test_illformed_subject : Fields.subjectOk ⟨0x45#8, true, 0#7, 0#32⟩ = false ∧ Fields.subjectOk ⟨0x10#8, true, 0#7, 0x52755374#32⟩ = false := by decide

/-- V-E9: CO.COUNT with arg = 1. -/
theorem test_illformed_argument : Fields.argumentOk ⟨0x45#8, false, 0#7, 1#32⟩ = false ∧ Fields.legal ⟨0x45#8, false, 0#7, 1#32⟩ = false := by decide

/-- Each format with the freest fields it allows (R89). -/
theorem test_wellformed : Fields.legal ⟨0x45#8, false, 0#7, 0#32⟩ = true ∧ Fields.legal ⟨0x10#8, false, 0#7, 0xFFFFFFFF#32⟩ = true ∧
    Fields.legal ⟨0x37#8, true, 0#7, 0xFFFFFFFF#32⟩ = true := by decide

/-! ### Decoding: words written out from 30_encoding R88, R90, R92, for every command -/

/-- CTU words: V-E11 and the opcodes 0x11 to 0x18. -/
theorem test_decode_ctu :
    decode 0x527553740010#48 = .instr (.ctParse 0x52755374#32) ∧ decode 0x000000000011#48 = .instr .ctParsestr ∧
    decode 0x000000000012#48 = .instr .ctBytes ∧ decode 0x000000000013#48 = .instr .ctTostr ∧ decode 0x000000000014#48 = .instr .ctIscrit ∧
    decode 0x000000000015#48 = .instr .ctIspub ∧ decode 0x000000000016#48 = .instr .ctIsrsv ∧ decode 0x000000000017#48 = .instr .ctIssafe ∧
    decode 0x000000000018#48 = .instr .ctIsvalid := by decide

/-- The CRCU word. -/
theorem test_decode_crcu : decode 0x000000000020#48 = .instr .crcCalc := by decide

/-- RCU words: both subjects, the words of programs P2 and P5 among them. -/
theorem test_decode_rcu :
    decode 0x000000000030#48 = .instr .chNew ∧ decode 0x000000000031#48 = .instr .chParse ∧
    decode 0x000000020132#48 = .instr (.chLen .entry 2#32) ∧ decode 0xFFFFFFFF0032#48 = .instr (.chLen .wc 0xFFFFFFFF#32) ∧
    decode 0x000000010133#48 = .instr (.chType .entry 1#32) ∧ decode 0x000000010134#48 = .instr (.chData .entry 1#32) ∧
    decode 0x000000010135#48 = .instr (.chCrc .entry 1#32) ∧ decode 0x000000010136#48 = .instr (.chDatastr .entry 1#32) ∧
    decode 0x000000000037#48 = .instr (.chBytes .wc 0#32) := by decide

/-- CSU words. -/
theorem test_decode_csu :
    decode 0x000000000040#48 = .instr .coParse ∧ decode 0x000000000041#48 = .instr .coClear ∧ decode 0x000000000042#48 = .instr .coAppend ∧
    decode 0x000000000043#48 = .instr .coRemove ∧ decode 0x000000000044#48 = .instr .coFind ∧ decode 0x000000000045#48 = .instr .coCount ∧
    decode 0x000000000046#48 = .instr .coBytes := by decide

/-- V-E2 to V-E10. -/
theorem test_decode_illegal :
    decode 0#48 = .reject .unknownOpcode ∧ decode 0x19#48 = .reject .unknownOpcode ∧ decode 0x47#48 = .reject .unknownOpcode ∧
    decode 0xFF#48 = .reject .unknownOpcode ∧ decode 0x245#48 = .reject .reservedBits ∧ decode 0x8032#48 = .reject .reservedBits ∧
    decode 0x145#48 = .reject .subjectBit ∧ decode 0x10045#48 = .reject .argumentBits ∧ decode 0x527553740110#48 = .reject .subjectBit := by decide

/-- The word of a table row as the host numbers its bits. -/
theorem test_decode_table_word : decodeTableWord 48 0x000000020132 = some (.chLen .entry 2#32) ∧ decodeTableWord 48 0x19 = none ∧
    decodeTableWord 56 0x45 = none := by decide

/-! ### Reset, fetching, host moves -/

/-- 10_state R36: reset memory is in canonical form, no offset is valid. -/
theorem test_reset_memory : State.reset.ibuf.wf = true ∧ State.reset.obuf.wf = true ∧ State.reset.ibuf.read 0 = none := by decide

/-- A word presented after reset is run by the next step (V-E11): STATUS = 0x00, RES = 0, TR holds the type. -/
theorem test_step_runs_word : (after (step (State.reset.withFetchWord 48 0x527553740010))).map (fun t => (statusWord t.status, t.res, t.tr)) =
    some (0x00#8, 0#32, some ruSt) := by decide

/-- V-E2 to V-E10 from the reset state: an illegal word gives STATUS = 0x88, RES = 0. -/
theorem test_step_illegal_word : answer (step (State.reset.withFetchWord 48 0x10045)) = some (0x88#8, 0#32) := by decide

/-- V-E12 to V-E14 from the reset state: STATUS = 0x89 and 0x8A. -/
theorem test_step_absent_subject : answer (step (State.reset.withFetchWord 48 0xFFFFFFFF0032)) = some (0x89#8, 0#32) ∧
    answer (step (State.reset.withFetchWord 48 0x132)) = some (0x8A#8, 0#32) ∧
    answer (step (State.reset.withFetchWord 48 0xFFFFFFFF0132)) = some (0x8A#8, 0#32) := by decide

/-- Program P4: after a fault a word, legal or not, is refused; STATUS stays 0x89. -/
theorem test_step_refused : answer (step (faulted.withFetchWord 48 0x45)) = some (0x89#8, 7#32) ∧
    answer (step (faulted.withFetchWord 48 0x99)) = some (0x89#8, 7#32) := by decide

/-- Program P4: reset empties everything and clears the fault. -/
theorem test_step_reset : after (step (withMove .reset faulted)) = some State.reset := by decide

/-- 20_memory R52: a shorter host write leaves no older byte. -/
theorem test_host_write_replaces : ((after (step (withMove (.writeInput [0x78]) base))).map fun t => (t.ibuf.length, t.ibuf.read 0, t.ibuf.read 1)) =
    some (1, some 0x78#8, none) := by decide

/-! ### Chunk-type unit -/

/-- V-T1 to V-T4, V-T15: the ends of both letter ranges construct. -/
theorem test_ctParse_letters : [0x41414141#32, 0x5A5A5A5A#32, 0x61616161#32, 0x7A7A7A7A#32, 0x624C4F62#32].map
    (fun arg => answer (exec (.ctParse arg) base)) = List.replicate 5 (some (0x00#8, 0#32)) := by decide

/-- V-T5 to V-T8, V-T10 to V-T14: one bad byte at each place; TR stays. -/
theorem test_ctParse_rejects : [0x40414141#32, 0x415B4141#32, 0x41416041#32, 0x4141417B#32, 0x52553154#32, 0x5275D374#32, 0#32, 0xFFFFFFFF#32].map
    (fun arg => (after (exec (.ctParse arg) base)).map fun t => (statusWord t.status, t.res, t.tr)) =
      List.replicate 8 (some (0x01#8, 0#32, some ruSt)) := by decide

/-- V-T42: four letters go to TR in order. -/
theorem test_ctParsestr_loads : (after (exec .ctParsestr (withInput [0x52, 0x75, 0x53, 0x74] bare))).map (fun t => (t.tr, t.status)) =
    some (some ruSt, ⟨.ok, false⟩) := by decide

/-- V-T40, V-T41, V-T43, V-T44, V-T47. -/
theorem test_ctParsestr_rejects : [[], [0x52, 0x75, 0x53], [0x52, 0x75, 0x53, 0x74, 0x78], [0x52, 0x75, 0x35, 0x74], [0x52, 0xC3, 0xBC, 0x74]].map
    (fun B => answer (exec .ctParsestr (withInput B base))) = List.replicate 5 (some (0x01#8, 0#32)) := by decide

/-- V-T20 to V-T31, the columns of CT.BYTES, CT.ISCRIT, CT.ISPUB, CT.ISRSV, CT.ISSAFE, CT.ISVALID. -/
def flagsOf (t : Quad) : List (Option Word) :=
  [Instr.ctBytes, .ctIscrit, .ctIspub, .ctIsrsv, .ctIssafe, .ctIsvalid].map fun i => (answer (exec i { base with tr := some t })).map Prod.snd

/-- V-T20, V-T22, V-T24: IHDR, tEXt, Rust. -/
theorem test_flags_1 : flagsOf ⟨0x49, 0x48, 0x44, 0x52⟩ = [some 0x49484452#32, some 1#32, some 1#32, some 1#32, some 0#32, some 1#32] ∧
    flagsOf ⟨0x74, 0x45, 0x58, 0x74⟩ = [some 0x74455874#32, some 0#32, some 1#32, some 1#32, some 1#32, some 1#32] ∧
    flagsOf ⟨0x52, 0x75, 0x73, 0x74⟩ = [some 0x52757374#32, some 1#32, some 0#32, some 0#32, some 1#32, some 0#32] := by decide

/-- V-T23 (RuSt is safe to copy), V-T25, V-T31. -/
theorem test_flags_2 : flagsOf ruSt = [some 0x52755374#32, some 1#32, some 0#32, some 1#32, some 1#32, some 1#32] ∧
    flagsOf ⟨0x72, 0x75, 0x53, 0x74⟩ = [some 0x72755374#32, some 0#32, some 0#32, some 1#32, some 1#32, some 1#32] ∧
    flagsOf ⟨0x61, 0x61, 0x41, 0x41⟩ = [some 0x61614141#32, some 0#32, some 0#32, some 1#32, some 0#32, some 1#32] := by decide

/-- V-T23, CT.TOSTR. -/
theorem test_ctTostr : output (exec .ctTostr base) = some [0x52, 0x75, 0x53, 0x74] ∧ answer (exec .ctTostr base) = some (0x00#8, 0#32) := by decide

/-! ### CRC unit -/

/-- The 42 payload bytes of V-S4 as V-S5 prints them. -/
def message : List Byte := [
  0x54, 0x68, 0x69, 0x73, 0x20, 0x69, 0x73, 0x20, 0x77, 0x68, 0x65, 0x72, 0x65, 0x20, 0x79, 0x6F, 0x75, 0x72, 0x20, 0x73, 0x65,
  0x63, 0x72, 0x65, 0x74, 0x20, 0x6D, 0x65, 0x73, 0x73, 0x61, 0x67, 0x65, 0x20, 0x77, 0x69, 0x6C, 0x6C, 0x20, 0x62, 0x65, 0x21]

/-- V-C1 to V-C6. -/
theorem test_crc_short : [[], [0x00], [0xFF], [0x01], [0x80], [0x61]].map (fun B => answer (exec .crcCalc (withInput B base))) =
    [0x00000000#32, 0xD202EF8D#32, 0xFF000000#32, 0xA505DF1B#32, 0x3FBA6CAD#32, 0xE8B7BE43#32].map (fun v => some (0x00#8, v)) := by decide +kernel

/-- V-C8 with its register trace, V-C9, V-C10, V-C19, V-C20, the streaming value of 95_test_vectors 2.1, and V-S4 (41_crc32 R147). -/
theorem test_crc_longer : crc32 [0x31, 0x32, 0x33, 0x34, 0x35, 0x36, 0x37, 0x38, 0x39] = 0xCBF43926#32 ∧
    crcFold 0xFFFFFFFF#32 [0x31, 0x32, 0x33] = 0x77B79C2D#32 ∧ crc32 [0x00, 0x00, 0x00, 0x00] = 0x2144DF1C#32 ∧
    crc32 [0xFF, 0xFF, 0xFF, 0xFF] = 0xFFFFFFFF#32 ∧ crc32 [0x61, 0x62] = 0x9E83486D#32 ∧ crc32 [0x62, 0x61] = 0x2CA74A14#32 ∧
    crcFold 0xFFFFFFFF#32 [0x52, 0x75, 0x53, 0x74] = 0x2B7BF6C3#32 ∧ chunkCrc ⟨ruSt, message⟩ = 0xABD1D84E#32 ∧ crc32 message = 0xFB8A42EC#32 := by decide +kernel

/-! ### Record unit -/

/-- Program P1: CH.NEW on RuSt and Hi, then what CH.BYTES gives (V-P6). -/
theorem test_chNew : ((after (exec .chNew (withInput [0x48, 0x69] base))).bind fun t => output (exec (.chBytes .wc 0#32) t)) = some record6 := by
  decide +kernel

/-- V-P6, V-P8: the record is parsed, and three bytes after it change nothing. -/
theorem test_chParse_loads : [record6, record6 ++ [0xAA, 0xBB, 0xCC]].map (fun B => (after (exec .chParse (withInput B base))).map fun t => (t.wc, t.status)) =
    List.replicate 2 (some (some ⟨ruSt, [0x48, 0x69]⟩, ⟨.ok, false⟩)) := by decide +kernel

/-- V-P4, V-P7, V-P11 (bad type before bad crc), V-P12 (truncation before bad type), V-P13, V-P18, V-P19, V-P20. -/
theorem test_chParse_rejects : [record6.take 11, record6.take 13,
      [0x00, 0x00, 0x00, 0x02, 0x52, 0x75, 0x35, 0x74, 0x48, 0x69, 0x00, 0x00, 0x00, 0x00],
      [0x00, 0x00, 0x00, 0x02, 0x52, 0x75, 0x35, 0x74, 0x48, 0x69, 0x59, 0x75, 0xB3],
      [0x00, 0x00, 0x00, 0x02, 0x52, 0x75, 0x53, 0x74, 0x48, 0x69, 0x47, 0x38, 0x1B, 0xD0],
      [0x00, 0x00, 0x00, 0x01, 0x52, 0x75, 0x53, 0x74, 0x48, 0x69, 0x47, 0x38, 0x1B, 0xD1],
      [0xFF, 0xFF, 0xFF, 0xFF, 0x52, 0x75, 0x53, 0x74, 0x48, 0x69, 0x00, 0x00, 0x00, 0x00],
      [0xFF, 0xFF, 0xFF, 0xF8, 0x52, 0x75, 0x53, 0x74, 0x00, 0x00, 0x00, 0x00]].map
    (fun B => answer (exec .chParse (withInput B base))) =
      [0x03#8, 0x03#8, 0x01#8, 0x03#8, 0x02#8, 0x02#8, 0x03#8, 0x03#8].map (fun c => some (c, 0#32)) := by decide +kernel

/-- V-A1, V-A2, V-A4. -/
theorem test_scalar_accessors : [Instr.chLen .wc 0#32, .chType .wc 0#32, .chCrc .wc 0#32].map (fun i => answer (exec i base)) =
    [some (0x00#8, 5#32), some (0x00#8, 0x74655374#32), some (0x00#8, 0x2C4E8899#32)] := by decide +kernel

/-- V-A2, program P2: CH.TYPE also loads TR; an entry is taken by its index. -/
theorem test_chType_loads_tr : (after (exec (.chType .wc 0#32) base)).map (fun t => t.tr) = some (some teSt) ∧
    (after (exec (.chType .entry 1#32) base)).map (fun t => t.tr) = some (some miDl) := by decide

/-- V-A3, V-A5, V-A6. -/
theorem test_buffer_accessors : [Instr.chData .wc 0#32, .chDatastr .wc 0#32, .chBytes .wc 0#32].map (fun i => output (exec i base)) =
    [some [0x48, 0x69, 0xFF, 0x00, 0x80], some [0x48, 0x69, 0xC3, 0xBF, 0x00, 0xC2, 0x80],
     some [0x00, 0x00, 0x00, 0x05, 0x74, 0x65, 0x53, 0x74, 0x48, 0x69, 0xFF, 0x00, 0x80, 0x2C, 0x4E, 0x88, 0x99]] := by decide +kernel

/-- The byte mapping of CH.DATASTR at all boundary values (95_test_vectors 2.5). -/
theorem test_datastr_bytes : [0x00#8, 0x41#8, 0x7F#8, 0x80#8, 0xA9#8, 0xBF#8, 0xC0#8, 0xE9#8, 0xFF#8].map (fun b => dataStringBytes [b]) =
    [[0x00], [0x41], [0x7F], [0xC2, 0x80], [0xC2, 0xA9], [0xC2, 0xBF], [0xC3, 0x80], [0xC3, 0xA9], [0xC3, 0xBF]] := by decide

/-! ### Container sequencer -/

/-- V-K3, V-K9, V-K10: RES and the list. -/
theorem test_coParse_loads : [sigBytes, sigBytes ++ record6 ++ record5, sigBytes ++ record5 ++ record6].map
    (fun B => (after (exec .coParse (withInput B base))).map fun t => (t.res, t.cl)) =
      [some (0#32, []), some (2#32, [⟨ruSt, [0x48, 0x69]⟩, ⟨⟨0x49, 0x45, 0x4E, 0x44⟩, []⟩]),
       some (2#32, [⟨⟨0x49, 0x45, 0x4E, 0x44⟩, []⟩, ⟨ruSt, [0x48, 0x69]⟩])] := by decide +kernel

/-- V-K1, V-K4, V-K7, V-K11, V-K13, V-K16: the code, and the old list kept. -/
theorem test_coParse_rejects : [[], [0x89, 0x50, 0x4E, 0x47, 0x0D, 0x0A, 0x1A, 0x0B], 0x00 :: sigBytes, sigBytes ++ [0x00],
      sigBytes ++ record6 ++ record5.take 11,
      sigBytes ++ [0x00, 0x00, 0x00, 0x02, 0x52, 0x75, 0x53, 0x74, 0x48, 0x69, 0x00, 0x00, 0x00, 0x00] ++
        [0x00, 0x00, 0x00, 0x00, 0x49, 0x33, 0x4E, 0x44, 0xFE, 0x3E, 0x74, 0x60]].map
    (fun B => (after (exec .coParse (withInput B base))).map fun t => (statusWord t.status, t.res, t.cl)) =
      [0x04#8, 0x04#8, 0x04#8, 0x03#8, 0x03#8, 0x02#8].map (fun c => some (c, 0#32, list4)) := by decide +kernel

/-- 43_container R210 and V-S12: the empty stream is the signature. -/
theorem test_coClear_coBytes : ((after (exec .coClear base)).bind fun t => output (exec .coBytes t)) = some sigBytes ∧
    answer (exec .coClear base) = some (0x00#8, 0#32) := by decide +kernel

/-- Program P1: the appended chunk is the last, WC is empty, RES is its index. -/
theorem test_coAppend : (after (exec .coAppend base)).map (fun t => (t.cl, t.wc, t.res)) = some (list4 ++ [chunkA], none, 4#32) := by decide

/-- V-S10, step 1: the first of two matches. -/
theorem test_coRemove_first : (after (exec .coRemove base)).map (fun t => (t.wc, t.cl.map fun c => c.data.length, t.res)) =
    some (some ⟨miDl, [0x74, 0x77, 0x6F]⟩, [3, 5, 4], 1#32) := by decide

/-- V-S10, steps 4 to 6: no match, WC and CL stay. -/
theorem test_coRemove_none : [[0x49, 0x45, 0x4E, 0x44], [0x66, 0x72, 0x73, 0x74], [0x46, 0x72, 0x53]].map
    (fun B => (after (exec .coRemove (withInput B base))).map fun t => (statusWord t.status, t.res, t.wc, t.cl)) =
      List.replicate 3 (some (0x05#8, 0#32, some chunkA, list4)) := by decide

/-- V-S11. -/
theorem test_coFind : [[0x46, 0x72, 0x53, 0x74], miDlBytes, [0x4C, 0x41, 0x53, 0x74], [0x49, 0x45, 0x4E, 0x44], [0x4D, 0x49, 0x44, 0x4C], [],
      miDlBytes ++ [0x78]].map (fun B => (answer (exec .coFind (withInput B base))).map Prod.snd) =
    [some 0#32, some 1#32, some 3#32, some 4#32, some 4#32, some 4#32, some 4#32] := by decide

/-- 43_container R219, and V-E1. -/
theorem test_coCount : answer (exec .coCount base) = some (0x00#8, 4#32) ∧ answer (exec .coCount State.reset) = some (0x00#8, 0#32) := by decide

/-- V-K9: CO.BYTES gives back the stream. -/
theorem test_coBytes : ((after (exec .coParse (withInput (sigBytes ++ record6 ++ record5) base))).bind fun t => output (exec .coBytes t)) =
    some (sigBytes ++ record6 ++ record5) := by decide +kernel

/-! ### Witnesses: each statement's hypotheses can be met, together -/

theorem witness_DecodeOfEncodeIsTheCommand : (Instr.chLen .entry 0xFFFFFFFF#32).wellFormed = true ∧ Instr.coBytes.wellFormed = true := by decide

theorem witness_EncodeOfDecodeIsTheWord : decode 0xFFFFFFFF0137#48 = .instr (.chBytes .entry 0xFFFFFFFF#32) := by decide

theorem witness_IllegalWords : (withMove (.command 0x19#48) base).port = .command 0x19#48 :: [] ∧ (withMove (.command 0x19#48) base).status.f = false ∧
    ¬ ∃ i, decode 0x19#48 = .instr i := by
  refine ⟨rfl, rfl, ?_⟩
  rintro ⟨i, h⟩
  have h' : decode 0x19#48 = .reject .unknownOpcode := by decide
  rw [h'] at h
  cases h

theorem witness_StepRunsTheDecodedCommand : (withMove (.command 0x45#48) base).port = .command 0x45#48 :: [] ∧ decode 0x45#48 = .instr .coCount := by decide

/-- Both sides of the capacity: four bytes fit, five do not. -/
theorem witness_HostWrite : (withMove (.writeInput miDlBytes) tight).port = .writeInput miDlBytes :: [] ∧ fits tight.params.ibufCap miDlBytes.length = true ∧
    (withMove (.writeInput (miDlBytes ++ [0x78])) tight).port = .writeInput (miDlBytes ++ [0x78]) :: [] ∧
    fits tight.params.ibufCap (miDlBytes ++ [0x78]).length = false := by decide

theorem witness_HostReadAndIdle : (withMove .readResponse base).port = .readResponse :: [] ∧ base.port = [] := by decide

theorem witness_ResetEvent : (withMove .reset faulted).port = .reset :: [] := by decide

theorem witness_OnlyReset : step (withMove .reset faulted) = .next State.reset ∧ faulted.status.f = true ∧ State.reset.status.f = false ∧
    faulted.tr ≠ none ∧ State.reset.tr = none :=
  ⟨next_of_after (by decide), by decide⟩

theorem witness_CommandsAreRefused : faulted.status.f = true ∧ (withMove (.command 0x99#48) faulted).port = .command 0x99#48 :: [] ∧
    (withMove (.command 0x99#48) faulted).status.f = true := by decide

theorem witness_AFault : bare.status.f = false ∧ exec .ctBytes bare = .next (setStatus bare ⟨.fault .noOperand, true⟩) ∧
    (setStatus bare ⟨.fault .noOperand, true⟩).status.f = true :=
  ⟨by decide, next_of_after (by decide), by decide⟩

theorem witness_AnError : base.status.f = false ∧ exec .ctParsestr (withInput [] base) = .next (setEc (setRes (withInput [] base) 0#32) (.error .invalidChunkType)) ∧
    (setEc (setRes (withInput [] base) 0#32) (.error .invalidChunkType)).status.ec = .error .invalidChunkType :=
  ⟨by decide, next_of_after (by decide), by decide⟩

theorem witness_OutcomeCodes : (setEc base (.error .invalidCrc)).status.f = false := by decide

/-- A command that has an effect: hypotheses of the frames of IBUF, TR, WC, CL, each with its column of the access table. -/
theorem witness_Frames : exec .coCount base = .next (setRes base 4#32) ∧ (access .coCount).writesTr = false ∧ (access .coCount).writesWc = false ∧
    (access .coCount).writesCl = false ∧ (access .coCount).readsInput = false :=
  ⟨next_of_after (by decide), by decide⟩

/-- A write over longer old content, into a buffer of exactly four bytes: no older byte stays, and nothing is appended (V-T23, 20_memory R57). -/
theorem witness_OutputBufferReplaced :
    let s : State := { base with params := ⟨none, some 4, 4#32⟩, obuf := Memory.ofBytes [0x61, 0x62, 0x63, 0x64] }
    (∃ t, exec .ctTostr s = .next t ∧ (access .ctTostr).writesObuf = true ∧ t.status.ec = .ok ∧ s.status.f = false ∧ t.obuf.length = 4) ∧
      outputOf .ctTostr s = some [0x52, 0x75, 0x53, 0x74] ∧ outputOf (.chDatastr .wc 0#32) s = some [0x48, 0x69, 0xC3, 0xBF, 0x00, 0xC2, 0x80] := by
  intro s
  exact ⟨⟨setRes (setObuf s (Memory.ofBytes [0x52, 0x75, 0x53, 0x74])) 0#32, next_of_after (by decide), by decide⟩, by decide⟩

/-- The clauses of the frame of OBUF: a command that writes no OBUF, an outcome that is not OK, a refused command, and a write. -/
theorem witness_OutputBuffer : (∃ t, exec .coCount base = .next t ∧ (access .coCount).writesObuf = false) ∧
    (∃ t, exec .coBytes tight = .next t ∧ t.status.ec ≠ .ok) ∧ (∃ t, exec .coBytes faulted = .next t ∧ faulted.status.f = true) ∧
    (∃ t, exec .ctTostr base = .next t ∧ (access .ctTostr).writesObuf = true ∧ t.status.ec = .ok ∧ base.status.f = false) :=
  ⟨⟨setRes base 4#32, next_of_after (by decide), by decide⟩,
   ⟨setStatus tight ⟨.fault .capacityExceeded, true⟩, next_of_after (by decide +kernel), by decide⟩,
   ⟨faulted, next_of_after (by decide), by decide⟩,
   ⟨setRes (setObuf base (Memory.ofBytes [0x52, 0x75, 0x53, 0x74])) 0#32, next_of_after (by decide), by decide⟩⟩

theorem witness_Invariant : base.Inv ∧ (setPort tight [.command 0x45#48]).Inv ∧
    step (setPort tight [.command 0x45#48]) = .next (setRes tight 4#32) :=
  ⟨by decide, by decide, next_of_after (by decide)⟩

/-- Each clause; the index is the first that does not exist. -/
theorem witness_AbsentOperands : bare.status.f = false ∧ (access .ctIsvalid).readsTr = true ∧ bare.tr = none ∧
    (access (.chLen .wc 0#32)).readsWc = true ∧ bare.wc = none ∧ base.status.f = false ∧ base.cl.length ≤ (4#32).toNat := by decide

theorem witness_Letters : alpha 0x41#8 = true ∧ alpha 0x5A#8 = true ∧ alpha 0x61#8 = true ∧ alpha 0x7A#8 = true ∧ caseBit 0x5A#8 = false := by decide

theorem witness_Flags : ChunkType.alphabetic ⟨0x41, 0x5A, 0x61, 0x7A⟩ = true := by decide

/-- Both sides of the order and of equality occur. -/
theorem witness_TypeOrder : ctEq ruSt ruSt = true ∧ ctLt ruSt teSt = true ∧ ctLt teSt ruSt = false ∧
    ctLt ⟨0x41, 0x41, 0x41, 0x41⟩ ⟨0x41, 0x41, 0x41, 0x61⟩ = true := by decide

/-- The last bit of the polynomial and the last entry of the table as 41_crc32 R142 prints it. -/
theorem witness_Checksum : 31 < 32 ∧ crcParams.polyReflected.getLsbD 31 = true ∧ (0x04C11DB7#32).getMsbD 31 = true ∧
    255 < 256 ∧ crcTable[255]? = some 0x2D02EF8D#32 ∧ crcShifts 8 0xFF#32 = 0x2D02EF8D#32 := by decide +kernel

/-- V-S13. -/
theorem witness_DataString : dataStringBytes [0x48, 0xE9, 0xFF, 0x00, 0x7F, 0x80] = [0x48, 0xC3, 0xA9, 0xC3, 0xBF, 0x00, 0x7F, 0xC2, 0x80] := by decide

/-- Both sides: a stream that is one byte short of the signature, and the signature. -/
theorem witness_Signature : containerParse (sigBytes.take 7) = .error .invalidSignature ∧ (∃ rest, sigBytes = sigBytes ++ rest) :=
  ⟨rfl, [], rfl⟩

theorem witness_OneByteChanged : (0x00#8) ≠ 0x80#8 := by decide

/-- The two ways to be truncated, at the last length that is, and a record that is not. -/
theorem witness_Truncated : (record5.take 11).length < 12 ∧ (record6.take 13).length < 12 + (be32 ⟨0x00, 0x00, 0x00, 0x02⟩).toNat ∧
    chunkParse (record6.take 13) = .error .truncatedInput ∧ chunkParse record6 = .ok (⟨ruSt, [0x48, 0x69]⟩, 14) := by
  refine ⟨by decide, by decide, rfl, ?_⟩
  have h : (match chunkParse record6 with | .ok r => some r | .error _ => none) = some (⟨ruSt, [0x48, 0x69]⟩, 14) := by decide +kernel
  split at h
  · next r hr => rw [hr]; simpa using h
  · cases h

theorem witness_CompleteRecord : ([] : List Byte).length = (be32 ⟨0x00, 0x00, 0x00, 0x00⟩).toNat ∧
    [0x48#8, 0x69#8].length = (be32 ⟨0x00, 0x00, 0x00, 0x02⟩).toNat := by decide

theorem witness_RecordRoundTrip : ChunkType.alphabetic ruSt = true ∧ [0x48#8, 0x69#8].length ≤ 0xFFFFFFFF ∧
    chunkParse record6 = .ok (⟨ruSt, [0x48, 0x69]⟩, 14) :=
  ⟨by decide, by decide, witness_Truncated.2.2.2⟩

/-- The first and the last bit; the empty cut and the longest. -/
theorem witness_Damaged : chunkA.ok = true ∧ 0 < 32 ∧ 31 < 32 ∧ 0 < 12 + chunkA.data.length ∧ 16 < 12 + chunkA.data.length := by decide

theorem witness_StreamError : (∀ c ∈ list4, c.ok = true) ∧ record6.take 13 ≠ [] ∧ chunkParse (record6.take 13) = .error .truncatedInput :=
  ⟨by decide, by decide, witness_Truncated.2.2.1⟩

theorem witness_ContainerRoundTrip : containerParse sigBytes = .ok [] ∧ ∀ c ∈ list4, c.ok = true := ⟨rfl, by decide⟩

/-- The least match is not the first entry, and a string without a match. -/
theorem witness_FindFirst : findFirst list4 miDlBytes = some 1 ∧ findFirst list4 [] = none := by decide

theorem witness_CtParse : base.status.f = false ∧ ChunkType.alphabetic ruSt = true ∧ ChunkType.alphabetic ⟨0x40, 0x41, 0x41, 0x41⟩ = false := by decide

theorem witness_CtParsestr : inputBytes base = quadBytes miDl ∧ ChunkType.alphabetic miDl = true ∧
    (∀ t : Quad, inputBytes (withInput [] base) = quadBytes t → ChunkType.alphabetic t = false) := by
  refine ⟨by decide, by decide, ?_⟩
  intro t h
  have h' := congrArg List.length h
  simp [withInput] at h'

/-- TR filled and TR empty, with room for four bytes and without. -/
theorem witness_TypeCommands : base.status.f = false ∧ base.tr = some ruSt ∧ bare.status.f = false ∧ bare.tr = none ∧
    fits base.params.obufCap 4 = true ∧ tight.tr = some ruSt ∧ tight.status.f = false ∧ fits tight.params.obufCap 4 = false := by decide

theorem witness_CrcCalc : base.status.f = false ∧ State.reset.ibuf.length = 0 := by decide

/-- CH.NEW: every payload of a state that a run reaches soon is short; the long one is a memory of 2^32 bytes, which is a value of the type. -/
theorem witness_ChNew : base.status.f = false ∧ base.tr = some ruSt ∧ base.ibuf.length ≤ 0xFFFFFFFF ∧
    (∃ s : State, s.status.f = false ∧ s.tr = some ruSt ∧ 0xFFFFFFFF < s.ibuf.length) ∧ bare.tr = none := by
  refine ⟨by decide, by decide, by decide, ⟨withInput (List.replicate (0xFFFFFFFF + 1) 0#8) base, by rfl, by rfl, ?_⟩, by decide⟩
  have h : (withInput (List.replicate (0xFFFFFFFF + 1) 0#8) base).ibuf.length = 0xFFFFFFFF + 1 := by
    rw [withInput, setIbuf_ibuf, length_ofBytes, List.length_replicate]
  omega

theorem witness_ChParse : chunkParse (inputBytes (withInput record6 base)) = .ok (⟨ruSt, [0x48, 0x69]⟩, 14) ∧
    chunkParse (inputBytes (withInput [] base)) = .error .truncatedInput := by
  refine ⟨?_, rfl⟩
  have h : inputBytes (withInput record6 base) = record6 := by decide
  rw [h]
  exact witness_Truncated.2.2.2

/-- Both subjects, present (the last index) and absent (the first that does not exist). -/
theorem witness_Subjects : isSubject .wc 0#32 base chunkA ∧ isSubject .entry 3#32 base ⟨⟨0x4C, 0x41, 0x53, 0x74⟩, [0x66, 0x6F, 0x75, 0x72]⟩ ∧
    (¬ ∃ c, isSubject .wc 0#32 bare c) ∧ (¬ ∃ c, isSubject .entry 4#32 base c) ∧
    fits base.params.obufCap chunkA.data.length = true ∧ fits tight.params.obufCap chunkA.data.length = false ∧ isSubject .wc 0#32 tight chunkA := by
  refine ⟨rfl, rfl, ?_, ?_, by decide, by decide, rfl⟩
  · rintro ⟨c, h⟩; cases h
  · rintro ⟨c, h⟩; cases h

/-- A list that just fits MAX_CHUNKS, one that does not, and a stream that fails. -/
theorem witness_CoParse : (containerParse (inputBytes (withInput sigBytes { base with params := ⟨none, none, 0#32⟩ })) = .ok [] ∧ ([] : List Chunk).length ≤ (0#32).toNat) ∧
    (∃ list, containerParse (inputBytes (withInput (sigBytes ++ record5) { base with params := ⟨none, none, 0#32⟩ })) = .ok list ∧ (0#32).toNat < list.length) ∧
    containerParse (inputBytes (withInput [] base)) = .error .invalidSignature := by
  refine ⟨⟨rfl, by decide⟩, ?_, rfl⟩
  have h : (match containerParse (inputBytes (withInput (sigBytes ++ record5) { base with params := ⟨none, none, 0#32⟩ })) with
    | .ok list => decide ((0#32).toNat < list.length) | .error _ => false) = true := by decide +kernel
  split at h
  · next list hl => exact ⟨list, hl, of_decide_eq_true h⟩
  · cases h

/-- Room for one more, the list full, and WC empty. -/
theorem witness_CoAppend : base.wc = some chunkA ∧ base.cl.length ≠ base.params.maxChunks.toNat ∧ tight.wc = some chunkA ∧
    tight.cl.length = tight.params.maxChunks.toNat ∧ bare.wc = none := by decide

/-- A match behind another entry and before a second match; and no match. -/
theorem witness_Search : base.cl = list4.take 1 ++ (⟨miDl, [0x74, 0x77, 0x6F]⟩ : Chunk) :: list4.drop 2 ∧
    typeMatch ⟨miDl, [0x74, 0x77, 0x6F]⟩ (inputBytes base) = true ∧ (∀ c' ∈ list4.take 1, typeMatch c' (inputBytes base) = false) ∧
    (∀ c ∈ (withInput [] base).cl, typeMatch c (inputBytes (withInput [] base)) = false) := by decide

theorem witness_CoBytes : base.status.f = false ∧ fits base.params.obufCap (containerAsBytes base.cl).length = true ∧ tight.status.f = false ∧
    fits tight.params.obufCap (containerAsBytes tight.cl).length = false := by decide +kernel

theorem witness_CoParseReadsBack : base.Inv ∧ base.status.f = false ∧ ∃ t, exec .coBytes base = .next t ∧ t.status.f = false :=
  ⟨by decide, by decide, setRes (setObuf base (Memory.ofBytes (containerAsBytes list4))) 4#32, next_of_after (by decide +kernel), by decide⟩

end Sys2Proof.Tests
end

/-!
PROOFS. The family 00_scope: every command answers a next state (R9), and the big-endian primitives (R15).
-/

namespace Sys2Proof.Machine

/-! ### Every result is a next state, one rule per shared operation -/

/-- The model goes on: the result is a next state, neither a fault nor a refusal of the model. -/
def AnswersNext (r : Result) : Prop := ∃ t, r = .next t

theorem respond_answersNext (s : State) (v : Word) : AnswersNext (respond s v) := ⟨_, rfl⟩

theorem raiseError_answersNext (s : State) (e : ErrorKind) : AnswersNext (raiseError s e) := ⟨_, rfl⟩

theorem takeFault_answersNext (s : State) (r : FaultReason) : AnswersNext (takeFault s r) := ⟨_, rfl⟩

theorem accept_answersNext {s : State} {k : Result} (hk : AnswersNext k) : AnswersNext (accept s k) := by
  cases hf : s.status.f with
  | true => exact ⟨s, accept_of_faulted hf k⟩
  | false => rwa [accept_of_running hf]

theorem emit_answersNext (s : State) (B : List Byte) (v : Word) : AnswersNext (emit s B v) := by
  unfold emit
  split
  · exact respond_answersNext _ _
  · exact takeFault_answersNext _ _

theorem withType_answersNext {s : State} {k : ChunkType → Result} (hk : ∀ t, AnswersNext (k t)) : AnswersNext (withType s k) := by
  unfold withType
  split
  · exact takeFault_answersNext _ _
  · exact hk _

theorem withWorkingChunk_answersNext {s : State} {k : Chunk → Result} (hk : ∀ c, AnswersNext (k c)) :
    AnswersNext (withWorkingChunk s k) := by
  unfold withWorkingChunk
  split
  · exact takeFault_answersNext _ _
  · exact hk _

theorem withSubject_answersNext {sel : Subject} {arg : Word} {s : State} {k : Chunk → Result} (hk : ∀ c, AnswersNext (k c)) :
    AnswersNext (withSubject sel arg s k) := by
  unfold withSubject
  split
  · exact takeFault_answersNext _ _
  · exact hk _

theorem constructType_answersNext (s : State) (r : Except ErrorKind ChunkType) : AnswersNext (constructType s r) := by
  cases r with
  | error e => exact raiseError_answersNext s e
  | ok t => exact respond_answersNext _ _

theorem queryType_answersNext (s : State) (p : ChunkType → Bool) : AnswersNext (queryType s p) :=
  accept_answersNext (withType_answersNext fun _ => respond_answersNext _ _)

/-! ### The commands whose meaning branches by itself -/

theorem execChNew_answersNext (s : State) : AnswersNext (execChNew s) := by
  refine accept_answersNext (withType_answersNext fun t => ?_)
  split
  · exact takeFault_answersNext _ _
  · exact respond_answersNext _ _

theorem execChParse_answersNext (s : State) : AnswersNext (execChParse s) := by
  refine accept_answersNext ?_
  split
  · exact raiseError_answersNext _ _
  · exact respond_answersNext _ _

theorem execCoParse_answersNext (s : State) : AnswersNext (execCoParse s) := by
  refine accept_answersNext ?_
  split
  · exact raiseError_answersNext _ _
  · split
    · exact takeFault_answersNext _ _
    · exact respond_answersNext _ _

theorem execCoAppend_answersNext (s : State) : AnswersNext (execCoAppend s) := by
  refine accept_answersNext (withWorkingChunk_answersNext fun c => ?_)
  split
  · exact takeFault_answersNext _ _
  · exact respond_answersNext _ _

theorem execCoRemove_answersNext (s : State) : AnswersNext (execCoRemove s) := by
  refine accept_answersNext ?_
  split
  · exact raiseError_answersNext _ _
  · exact respond_answersNext _ _

/-! ### The dispatch -/

theorem exec_answersNext (i : Instr) (s : State) : AnswersNext (exec i s) := by
  cases i with
  | ctParse arg => exact accept_answersNext (constructType_answersNext s _)
  | ctParsestr => exact accept_answersNext (constructType_answersNext s _)
  | ctBytes => exact accept_answersNext (withType_answersNext fun _ => respond_answersNext _ _)
  | ctTostr => exact accept_answersNext (withType_answersNext fun _ => emit_answersNext _ _ _)
  | ctIscrit => exact queryType_answersNext s ctIsCritical
  | ctIspub => exact queryType_answersNext s ctIsPublic
  | ctIsrsv => exact queryType_answersNext s ctIsReservedBitValid
  | ctIssafe => exact queryType_answersNext s ctIsSafeToCopy
  | ctIsvalid => exact queryType_answersNext s ctIsValid
  | crcCalc => exact accept_answersNext (respond_answersNext _ _)
  | chNew => exact execChNew_answersNext s
  | chParse => exact execChParse_answersNext s
  | chLen sel arg => exact accept_answersNext (withSubject_answersNext fun _ => respond_answersNext _ _)
  | chType sel arg => exact accept_answersNext (withSubject_answersNext fun _ => respond_answersNext _ _)
  | chData sel arg => exact accept_answersNext (withSubject_answersNext fun _ => emit_answersNext _ _ _)
  | chCrc sel arg => exact accept_answersNext (withSubject_answersNext fun _ => respond_answersNext _ _)
  | chDatastr sel arg => exact accept_answersNext (withSubject_answersNext fun _ => emit_answersNext _ _ _)
  | chBytes sel arg => exact accept_answersNext (withSubject_answersNext fun _ => emit_answersNext _ _ _)
  | coParse => exact execCoParse_answersNext s
  | coClear => exact accept_answersNext (respond_answersNext _ _)
  | coAppend => exact execCoAppend_answersNext s
  | coRemove => exact execCoRemove_answersNext s
  | coFind => exact accept_answersNext (respond_answersNext _ _)
  | coCount => exact accept_answersNext (respond_answersNext _ _)
  | coBytes => exact accept_answersNext (emit_answersNext _ _ _)

/-- Settles O12: every command is a composition of operations that each answer a next state. -/
theorem everyCommandAnswersANextState : Obligations.EveryCommandAnswersANextState :=
  exec_answersNext

/-! ### Big-endian numbers -/

/-- Appending bits below a word shifts the word up by their number and adds them. -/
theorem toNat_append_eq_add {m n : Nat} (x : BitVec m) (y : BitVec n) : (x ++ y).toNat = x.toNat * 2 ^ n + y.toNat := by
  rw [BitVec.toNat_append, ← Nat.shiftLeft_add_eq_or_of_lt y.isLt, Nat.shiftLeft_eq]

theorem be32_toNat (q : Quad) :
    (be32 q).toNat = q.b0.toNat * 2 ^ 24 + q.b1.toNat * 2 ^ 16 + q.b2.toNat * 2 ^ 8 + q.b3.toNat := by
  simp only [be32, toNat_append_eq_add, Nat.add_assoc]

/-- Settles O25: the weights are those of three appends, and the inverse laws are those of Laws/Ops.lean. -/
theorem bigEndianWordsAreWeightedSums : Obligations.BigEndianWordsAreWeightedSums :=
  ⟨be32_toNat, toBe32_be32, be32_toBe32⟩

end Sys2Proof.Machine

/-!
PROOFS. The family 10_state: what a command can do to the state, said once (`exec_ends`), then the frame of TR, WC and CL and the invariant of the state;
the fault of an absent operand; STATUS as the host reads it.
-/

namespace Sys2Proof.Machine

/-! ### What a command can do -/

/-- What a successful command with the access `a` leaves besides RES and STATUS: the seven forms of a write, each with the column of the table that permits
it and with what makes the written value a legal one. -/
inductive Writes (a : Access) (s : State) : State → Prop where
  | nothing : Writes a s s
  | type {q : ChunkType} (hw : a.writesTr = true) (hq : s.Inv → ChunkType.alphabetic q = true) : Writes a s (setTr s (some q))
  | chunk {c : Chunk} (hw : a.writesWc = true) (hc : s.Inv → c.ok = true) : Writes a s (setWc s (some c))
  | list {l : List Chunk} (hw : a.writesCl = true) (hl : l.all Chunk.ok = true) (hlen : l.length ≤ s.params.maxChunks.toNat) :
      Writes a s (setCl s l)
  | output {B : List Byte} (hw : a.writesObuf = true) (hfit : fits s.params.obufCap B.length = true) :
      Writes a s (setObuf s (Memory.ofBytes B))
  | append {c : Chunk} (hwc : a.writesWc = true) (hcl : a.writesCl = true) (hc : s.wc = some c)
      (hlen : s.cl.length ≠ s.params.maxChunks.toNat) : Writes a s (setWc (setCl s (s.cl ++ [c])) none)
  | remove (n : Nat) (hwc : a.writesWc = true) (hcl : a.writesCl = true) :
      Writes a s (setCl (setWc s s.cl[n]?) (s.cl.take n ++ s.cl.drop (n + 1)))

/-- How a command with the access `a` ends once it is accepted: one of its errors, one of its faults, or a response after a write. -/
inductive Ends (a : Access) (s : State) : Result → Prop where
  | error {e : ErrorKind} (he : e ∈ a.errors) : Ends a s (raiseError s e)
  | fault {r : FaultReason} (hr : r ∈ a.faults) : Ends a s (takeFault s r)
  | ok {u : State} {v : Word} (hu : Writes a s u) : Ends a s (respond u v)

/-! ### The values that are written -/

theorem ctParse_eq_ok {q t : ChunkType} (h : ctParse q = .ok t) : ChunkType.alphabetic t = true := by
  unfold ctParse at h
  split at h
  · next ha => cases h; exact ha
  · cases h

theorem ctParse_eq_error {q : ChunkType} {e : ErrorKind} (h : ctParse q = .error e) : e = .invalidChunkType := by
  unfold ctParse at h
  split at h
  · cases h
  · cases h; rfl

theorem ctParseStr_eq_ok {B : List Byte} {t : ChunkType} (h : ctParseStr B = .ok t) : ChunkType.alphabetic t = true := by
  unfold ctParseStr at h
  split at h
  · exact ctParse_eq_ok h
  · cases h

theorem ctParseStr_eq_error {B : List Byte} {e : ErrorKind} (h : ctParseStr B = .error e) : e = .invalidChunkType := by
  unfold ctParseStr at h
  split at h
  · exact ctParse_eq_error h
  · cases h; rfl

/-- Every chunk of a parsed stream is a chunk value, since each comes from the record parser. -/
theorem parseRecords_all_ok {fuel : Nat} {B : List Byte} {l : List Chunk} (h : parseRecords fuel B = .ok l) : l.all Chunk.ok = true := by
  induction fuel generalizing B l with
  | zero => cases h; rfl
  | succ fuel ih =>
    by_cases hB : B = []
    · subst hB; cases h; rfl
    · rw [parseRecords_succ hB] at h
      split at h
      · cases h
      · next r hr =>
        split at h
        · cases h
        · next l' hl' => cases h; simp [chunkParse_ok_chunk hr, ih hl']

theorem containerParse_all_ok {B : List Byte} {l : List Chunk} (h : containerParse B = .ok l) : l.all Chunk.ok = true := by
  unfold containerParse at h
  split at h
  · cases h
  · exact parseRecords_all_ok h

/-- The errors of the stream parser: the signature's, or one of the record parser's (43_container R201, R204). -/
theorem containerParse_eq_error {B : List Byte} {e : ErrorKind} (h : containerParse B = .error e) :
    e = .invalidSignature ∨ e = .truncatedInput ∨ e = .invalidChunkType ∨ e = .invalidCrc := by
  unfold containerParse at h
  split at h
  · cases h; exact .inl rfl
  · exact .inr (parseRecords_eq_error h)

/-- In a state that meets the invariant, a type in TR is alphabetic. -/
theorem alphabetic_of_tr {s : State} {t : ChunkType} (hi : s.Inv) (h : s.tr = some t) : ChunkType.alphabetic t = true := by
  obtain ⟨htr, -⟩ := hi
  simpa [h] using htr

/-- In a state that meets the invariant, a chunk in WC is a chunk value. -/
theorem ok_of_wc {s : State} {c : Chunk} (hi : s.Inv) (h : s.wc = some c) : c.ok = true := by
  obtain ⟨-, hwc, -⟩ := hi
  simpa [h] using hwc

/-- In a state that meets the invariant, a list entry is a chunk value. -/
theorem ok_of_getElem? {s : State} {c : Chunk} {n : Nat} (hi : s.Inv) (h : s.cl[n]? = some c) : c.ok = true := by
  obtain ⟨-, -, hcl, -⟩ := hi
  exact List.all_eq_true.mp hcl c (List.mem_of_getElem? h)

/-- In a state that meets the invariant, a subject is a chunk value. -/
theorem ok_of_subject {s : State} {c : Chunk} {sel : Subject} {arg : Word} (hi : s.Inv) (h : subject sel arg s = .ok c) : c.ok = true := by
  rcases subject_eq_ok.mp h with ⟨-, hwc⟩ | ⟨-, hcl⟩
  · exact ok_of_wc hi hwc
  · exact ok_of_getElem? hi hcl

/-! ### How each shared operation ends -/

theorem accept_ends {a : Access} {s : State} {k : Result} (hf : s.status.f = false) (hk : Ends a s k) : Ends a s (accept s k) := by
  rwa [accept_of_running hf]

theorem respond_ends {a : Access} {s : State} (v : Word) : Ends a s (respond s v) := .ok .nothing

theorem emit_ends {a : Access} {s : State} (B : List Byte) (v : Word) (hw : a.writesObuf = true) (hr : .capacityExceeded ∈ a.faults) :
    Ends a s (emit s B v) := by
  unfold emit
  split
  · next hfit => exact .ok (.output hw hfit)
  · exact .fault hr

theorem withType_ends {a : Access} {s : State} {k : ChunkType → Result} (hr : .noOperand ∈ a.faults)
    (hk : ∀ t, s.tr = some t → Ends a s (k t)) : Ends a s (withType s k) := by
  unfold withType
  split
  · exact .fault hr
  · next t ht => exact hk t ht

theorem withWorkingChunk_ends {a : Access} {s : State} {k : Chunk → Result} (hr : .noOperand ∈ a.faults)
    (hk : ∀ c, s.wc = some c → Ends a s (k c)) : Ends a s (withWorkingChunk s k) := by
  unfold withWorkingChunk
  split
  · exact .fault hr
  · next c hc => exact hk c hc

/-- The fault of an absent subject is the one its access lists. -/
theorem mem_faults_of_subject_eq_error {sel : Subject} {arg : Word} {s : State} {r : FaultReason} (h : subject sel arg s = .error r) :
    r ∈ (subjectAccess sel).faults := by
  rcases subject_eq_error.mp h with ⟨rfl, -, rfl⟩ | ⟨rfl, -, rfl⟩
  · exact List.mem_singleton_self _
  · exact List.mem_singleton_self _

theorem withSubject_ends {a : Access} {s : State} {sel : Subject} {arg : Word} {k : Chunk → Result}
    (hr : (subjectAccess sel).faults ⊆ a.faults) (hk : ∀ c, subject sel arg s = .ok c → Ends a s (k c)) :
    Ends a s (withSubject sel arg s k) := by
  unfold withSubject
  split
  · next r hs => exact .fault (hr (mem_faults_of_subject_eq_error hs))
  · next c hs => exact hk c hs

theorem constructType_ends {a : Access} {s : State} {r : Except ErrorKind ChunkType} (hw : a.writesTr = true)
    (he : ∀ e, r = .error e → e ∈ a.errors) (hq : ∀ t, r = .ok t → ChunkType.alphabetic t = true) : Ends a s (constructType s r) := by
  cases r with
  | error e => exact .error (he e rfl)
  | ok t => exact .ok (.type hw fun _ => hq t rfl)

theorem queryType_ends {a : Access} {s : State} (p : ChunkType → Bool) (hf : s.status.f = false) (hr : .noOperand ∈ a.faults) :
    Ends a s (queryType s p) :=
  accept_ends hf (withType_ends hr fun _ _ => respond_ends _)

/-! ### How each command ends -/

theorem execCtParse_ends {s : State} (arg : Word) (hf : s.status.f = false) : Ends (access (.ctParse arg)) s (execCtParse arg s) :=
  accept_ends hf (constructType_ends rfl (fun _ he => ctParse_eq_error he ▸ List.mem_singleton_self _) fun _ => ctParse_eq_ok)

theorem execCtParsestr_ends {s : State} (hf : s.status.f = false) : Ends (access .ctParsestr) s (execCtParsestr s) :=
  accept_ends hf (constructType_ends rfl (fun _ he => ctParseStr_eq_error he ▸ List.mem_singleton_self _) fun _ => ctParseStr_eq_ok)

theorem execChNew_ends {s : State} (hf : s.status.f = false) : Ends (access .chNew) s (execChNew s) := by
  refine accept_ends hf (withType_ends (by decide) fun t ht => ?_)
  split
  · exact .fault (by decide)
  · next hlen =>
    exact .ok (.chunk rfl fun hi => chunk_ok_iff.mpr ⟨alphabetic_of_tr hi ht, by simpa [chunkNew] using hlen⟩)

theorem execChParse_ends {s : State} (hf : s.status.f = false) : Ends (access .chParse) s (execChParse s) := by
  refine accept_ends hf ?_
  split
  · next e he => exact .error (by simpa [access] using chunkParse_eq_error he)
  · next r hr => exact .ok (.chunk rfl fun _ => chunkParse_ok_chunk hr)

theorem execCoParse_ends {s : State} (hf : s.status.f = false) : Ends (access .coParse) s (execCoParse s) := by
  refine accept_ends hf ?_
  split
  · next e he => exact .error (by simpa [access] using containerParse_eq_error he)
  · next l hl =>
    split
    · exact .fault (by decide)
    · next hlen => exact .ok (.list rfl (containerParse_all_ok hl) (Nat.le_of_not_gt hlen))

theorem execCoAppend_ends {s : State} (hf : s.status.f = false) : Ends (access .coAppend) s (execCoAppend s) := by
  refine accept_ends hf (withWorkingChunk_ends (by decide) fun c hc => ?_)
  split
  · exact .fault (by decide)
  · next hlen => exact .ok (.append rfl rfl hc hlen)

theorem execCoRemove_ends {s : State} (hf : s.status.f = false) : Ends (access .coRemove) s (execCoRemove s) := by
  refine accept_ends hf ?_
  split
  · exact .error (by decide)
  · next n _ => exact .ok (.remove n rfl rfl)

/-- A format-S command that produces bytes of its subject (42_chunk_record R174, R176, R177). -/
theorem emitSubject_ends {s : State} {sel : Subject} {arg : Word} (B : Chunk → List Byte) (hf : s.status.f = false) :
    Ends (subjectToObuf sel) s (accept s (withSubject sel arg s fun c => emit s (B c) 0#32)) :=
  accept_ends hf (withSubject_ends (List.subset_append_left _ _) fun _ _ => emit_ends _ _ rfl List.mem_concat_self)

/-- An accepted command ends in one of its errors, one of its faults, or a response after a write that its row of the access table permits. -/
theorem exec_ends {s : State} (i : Instr) (hf : s.status.f = false) : Ends (access i) s (exec i s) := by
  cases i with
  | ctParse arg => exact execCtParse_ends arg hf
  | ctParsestr => exact execCtParsestr_ends hf
  | ctBytes => exact accept_ends hf (withType_ends (by decide) fun _ _ => respond_ends _)
  | ctTostr => exact accept_ends hf (withType_ends (by decide) fun _ _ => emit_ends _ _ rfl (by decide))
  | ctIscrit => exact queryType_ends ctIsCritical hf (by decide)
  | ctIspub => exact queryType_ends ctIsPublic hf (by decide)
  | ctIsrsv => exact queryType_ends ctIsReservedBitValid hf (by decide)
  | ctIssafe => exact queryType_ends ctIsSafeToCopy hf (by decide)
  | ctIsvalid => exact queryType_ends ctIsValid hf (by decide)
  | crcCalc => exact accept_ends hf (respond_ends _)
  | chNew => exact execChNew_ends hf
  | chParse => exact execChParse_ends hf
  | chLen sel arg => exact accept_ends hf (withSubject_ends (List.Subset.refl _) fun _ _ => respond_ends _)
  | chType sel arg =>
    exact accept_ends hf (withSubject_ends (List.Subset.refl _) fun c hc =>
      .ok (.type rfl fun hi => (chunk_ok_iff.mp (ok_of_subject hi hc)).1))
  | chData sel arg => exact emitSubject_ends Chunk.data hf
  | chCrc sel arg => exact accept_ends hf (withSubject_ends (List.Subset.refl _) fun _ _ => respond_ends _)
  | chDatastr sel arg => exact emitSubject_ends (fun c => dataStringBytes c.data) hf
  | chBytes sel arg => exact emitSubject_ends chunkAsBytes hf
  | coParse => exact execCoParse_ends hf
  | coClear => exact accept_ends hf (.ok (.list rfl rfl (Nat.zero_le _)))
  | coAppend => exact execCoAppend_ends hf
  | coRemove => exact execCoRemove_ends hf
  | coFind => exact accept_ends hf (respond_ends _)
  | coCount => exact accept_ends hf (respond_ends _)
  | coBytes => exact accept_ends hf (emit_ends _ _ rfl (by decide))

/-- While F = 1 every command is refused and changes nothing (60_exceptions R260). -/
theorem exec_of_faulted {s : State} (i : Instr) (hf : s.status.f = true) : exec i s = .next s := by
  cases i <;> exact accept_of_faulted hf _

/-- What a command leaves: the state as it was, or what one of its ends leaves. -/
theorem exec_eq_next {i : Instr} {s t : State} (h : exec i s = .next t) :
    (s.status.f = true ∧ t = s) ∨ (s.status.f = false ∧ Ends (access i) s (.next t)) := by
  cases hf : s.status.f with
  | true =>
    rw [exec_of_faulted i hf] at h
    cases h
    exact .inl ⟨rfl, rfl⟩
  | false => exact .inr ⟨rfl, h ▸ exec_ends i hf⟩

/-! ### The frame of TR, WC and CL -/

/-- `t` differs from `s` in TR, WC and CL only where the access `a` permits a write. -/
def KeepsUnwritten (a : Access) (s t : State) : Prop :=
  (a.writesTr = false → t.tr = s.tr) ∧ (a.writesWc = false → t.wc = s.wc) ∧ (a.writesCl = false → t.cl = s.cl)

theorem KeepsUnwritten.refl (a : Access) (s : State) : KeepsUnwritten a s s := ⟨fun _ => rfl, fun _ => rfl, fun _ => rfl⟩

theorem Writes.keepsUnwritten {a : Access} {s u : State} (h : Writes a s u) : KeepsUnwritten a s u := by
  cases h with
  | nothing | output => exact .refl a s
  | type hw | chunk hw | list hw => simp [KeepsUnwritten, hw]
  | append hwc hcl | remove n hwc hcl => simp [KeepsUnwritten, hwc, hcl]

theorem Ends.keepsUnwritten {a : Access} {s t : State} (h : Ends a s (.next t)) : KeepsUnwritten a s t := by
  cases h with
  | error | fault => exact .refl a s
  | ok hu => exact hu.keepsUnwritten

/-- Settles O19: an error and a fault keep the three registers, and each form of a write is permitted by its column of the access table. -/
theorem onlyTheNamedCommandsWriteTheChunkRegisters : Obligations.OnlyTheNamedCommandsWriteTheChunkRegisters := by
  intro i s t h
  rcases exec_eq_next h with ⟨-, rfl⟩ | ⟨-, he⟩
  · exact KeepsUnwritten.refl _ _
  · exact he.keepsUnwritten

/-! ### The invariant, one rule per setter -/

theorem inv_setTr {s : State} {v : Option ChunkType} (hi : s.Inv) (hv : v.all ChunkType.alphabetic = true) : (setTr s v).Inv := by
  obtain ⟨-, hrest⟩ := hi
  exact ⟨hv, hrest⟩

theorem inv_setWc {s : State} {v : Option Chunk} (hi : s.Inv) (hv : v.all Chunk.ok = true) : (setWc s v).Inv := by
  obtain ⟨htr, -, hrest⟩ := hi
  exact ⟨htr, hv, hrest⟩

theorem inv_setCl {s : State} {l : List Chunk} (hi : s.Inv) (hl : l.all Chunk.ok = true) (hlen : l.length ≤ s.params.maxChunks.toNat) :
    (setCl s l).Inv := by
  obtain ⟨htr, hwc, -, -, hrest⟩ := hi
  exact ⟨htr, hwc, hl, hlen, hrest⟩

theorem inv_setRes {s : State} (v : Word) (hi : s.Inv) : (setRes s v).Inv := hi

theorem inv_setPort {s : State} (p : List HostEvent) (hi : s.Inv) : (setPort s p).Inv := hi

theorem inv_setStatus {s : State} {v : Status} (hi : s.Inv) (hv : v.coherent = true) : (setStatus s v).Inv := by
  obtain ⟨htr, hwc, hcl, hlen, -, hrest⟩ := hi
  exact ⟨htr, hwc, hcl, hlen, hv, hrest⟩

theorem inv_setIbuf {s : State} {B : List Byte} (hi : s.Inv) (hfit : fits s.params.ibufCap B.length = true) :
    (setIbuf s (Memory.ofBytes B)).Inv := by
  obtain ⟨htr, hwc, hcl, hlen, hst, -, howf, -, hofit⟩ := hi
  exact ⟨htr, hwc, hcl, hlen, hst, wf_ofBytes B, howf, by simpa using hfit, hofit⟩

theorem inv_setObuf {s : State} {B : List Byte} (hi : s.Inv) (hfit : fits s.params.obufCap B.length = true) :
    (setObuf s (Memory.ofBytes B)).Inv := by
  obtain ⟨htr, hwc, hcl, hlen, hst, hiwf, -, hifit, -⟩ := hi
  exact ⟨htr, hwc, hcl, hlen, hst, hiwf, wf_ofBytes B, hifit, by simpa using hfit⟩

/-! ### Every command keeps the invariant -/

/-- A list that is not at MAX_CHUNKS is below it, so that it has room for the chunk of WC (43_container R212). -/
theorem inv_append {s : State} {c : Chunk} (hi : s.Inv) (hc : s.wc = some c) (hne : s.cl.length ≠ s.params.maxChunks.toNat) :
    (setWc (setCl s (s.cl ++ [c])) none).Inv := by
  have hok := ok_of_wc hi hc
  have ⟨_, _, hcl, hlen, _⟩ := hi
  have hroom : (s.cl ++ [c]).length ≤ s.params.maxChunks.toNat := by simp; omega
  exact inv_setWc (inv_setCl hi (by simp [hcl, hok]) hroom) rfl

/-- Taking an entry out of the list leaves a part of the list, and the entry was a chunk value (43_container R215). -/
theorem inv_remove {s : State} (n : Nat) (hi : s.Inv) : (setCl (setWc s s.cl[n]?) (s.cl.take n ++ s.cl.drop (n + 1))).Inv := by
  have ⟨_, _, hcl, hlen, _⟩ := hi
  have hsub : (s.cl.take n ++ s.cl.drop (n + 1)).Sublist s.cl := by
    rw [← List.eraseIdx_eq_take_drop_succ]
    exact List.eraseIdx_sublist ..
  have hentry : s.cl[n]?.all Chunk.ok = true := (Option.all_eq_true _ _).mpr fun _ h => ok_of_getElem? hi h
  refine inv_setCl (inv_setWc hi hentry) ?_ (hsub.length_le.trans hlen)
  exact List.all_eq_true.mpr fun c hc => List.all_eq_true.mp hcl c (hsub.subset hc)

/-- Each form of a write keeps the invariant. -/
theorem Writes.inv {a : Access} {s u : State} (h : Writes a s u) (hi : s.Inv) : u.Inv := by
  cases h with
  | nothing => exact hi
  | type _ hq => exact inv_setTr hi (hq hi)
  | chunk _ hc => exact inv_setWc hi (hc hi)
  | list _ hl hlen => exact inv_setCl hi hl hlen
  | output _ hfit => exact inv_setObuf hi hfit
  | append _ _ hc hne => exact inv_append hi hc hne
  | remove n => exact inv_remove n hi

theorem Writes.status_eq {a : Access} {s u : State} (h : Writes a s u) : u.status = s.status := by
  cases h <;> rfl

theorem Ends.inv {a : Access} {s t : State} (h : Ends a s (.next t)) (hf : s.status.f = false) (hi : s.Inv) : t.Inv := by
  cases h with
  | error => exact inv_setStatus (inv_setRes 0#32 hi) (by simp [Status.coherent, hf])
  | fault => exact inv_setStatus hi rfl
  | ok hu => exact inv_setStatus (inv_setRes _ (hu.inv hi)) (by simp [Status.coherent, hu.status_eq, hf])

theorem exec_inv {i : Instr} {s t : State} (hi : s.Inv) (h : exec i s = .next t) : t.Inv := by
  rcases exec_eq_next h with ⟨-, rfl⟩ | ⟨hf, he⟩
  · exact hi
  · exact he.inv hf hi

/-! ### Every move of the host keeps the invariant -/

theorem illegalCommand_inv {s t : State} (hi : s.Inv) (h : illegalCommand s = .next t) : t.Inv := by
  rcases accept_eq_next h with ⟨-, rfl⟩ | ⟨-, h⟩
  · exact hi
  · obtain rfl := takeFault_eq_next.mp h
    exact inv_setStatus hi rfl

theorem hostWrite_inv {B : List Byte} {s t : State} (hi : s.Inv) (h : hostWrite B s = .next t) : t.Inv := by
  unfold hostWrite at h
  split at h
  · next hfit => cases h; exact inv_setIbuf hi hfit
  · cases h

@[simp] theorem fits_zero (cap : Option Nat) : fits cap 0 = true := by
  cases cap <;> simp [fits]

/-- The reset event leaves a state that meets the invariant, from every state and for all capacities. -/
theorem resetEvent_inv {s t : State} (h : resetEvent s = .next t) : t.Inv := by
  cases h
  exact ⟨rfl, rfl, rfl, Nat.zero_le _, rfl, wf_empty, wf_empty, fits_zero _, fits_zero _⟩

/-- Settles O22: by the host's move, and for a command by the way it ends. -/
theorem everyStepKeepsTheInvariant : Obligations.EveryStepKeepsTheInvariant := by
  intro s t hi h
  unfold step at h
  split at h
  · cases h; exact hi
  · next w rest _ =>
    have hp := inv_setPort rest hi
    split at h
    · exact exec_inv hp h
    · exact illegalCommand_inv hp h
  · next rest _ => exact hostWrite_inv (inv_setPort rest hi) h
  · next rest _ => cases h; exact inv_setPort rest hi
  · exact resetEvent_inv h

/-- Settles O23: the reset state is what the reset event leaves of it. -/
theorem resetMeetsTheInvariant : Obligations.ResetMeetsTheInvariant :=
  resetEvent_inv (s := State.reset) rfl

/-- Settles O11: each value is the one State.reset is written with. -/
theorem resetStateHasTheListedValues : Obligations.ResetStateHasTheListedValues :=
  ⟨rfl, rfl, rfl, rfl, rfl, rfl, rfl⟩

/-! ### Absent operands -/

theorem withType_of_empty {s : State} (h : s.tr = none) (k : ChunkType → Result) : withType s k = takeFault s .noOperand := by
  simp [withType, h]

theorem withWorkingChunk_of_empty {s : State} (h : s.wc = none) (k : Chunk → Result) :
    withWorkingChunk s k = takeFault s .noOperand := by
  simp [withWorkingChunk, h]

theorem withSubject_of_error {sel : Subject} {arg : Word} {s : State} {r : FaultReason} (h : subject sel arg s = .error r)
    (k : Chunk → Result) : withSubject sel arg s k = takeFault s r := by
  simp [withSubject, h]

/-- With `s = 0` a format-S command reads the working chunk (30_encoding R89). -/
theorem withSubject_wc (arg : Word) (s : State) (k : Chunk → Result) : withSubject .wc arg s k = withWorkingChunk s k := by
  unfold withSubject subject withWorkingChunk
  cases s.wc <;> rfl

/-- A command that reads TR reads it before anything else. -/
theorem exec_of_readsTr {i : Instr} (s : State) (h : (access i).readsTr = true) : ∃ k, exec i s = accept s (withType s k) := by
  cases i with
  | ctBytes | ctTostr | ctIscrit | ctIspub | ctIsrsv | ctIssafe | ctIsvalid | chNew => exact ⟨_, rfl⟩
  | chLen sel | chType sel | chData sel | chCrc sel | chDatastr sel | chBytes sel => cases sel <;> cases h
  | _ => cases h

/-- A format-S command reads its subject before anything else. -/
theorem exec_of_formatS {i : Instr} {sel : Subject} {arg : Word} (s : State)
    (h : i ∈ [Instr.chLen sel arg, .chType sel arg, .chData sel arg, .chCrc sel arg, .chDatastr sel arg, .chBytes sel arg]) :
    ∃ k, exec i s = accept s (withSubject sel arg s k) := by
  simp only [List.mem_cons, List.not_mem_nil, or_false] at h
  rcases h with rfl | rfl | rfl | rfl | rfl | rfl <;> exact ⟨_, rfl⟩

/-- A command that reads WC reads it before anything else. -/
theorem exec_of_readsWc {i : Instr} (s : State) (h : (access i).readsWc = true) : ∃ k, exec i s = accept s (withWorkingChunk s k) := by
  cases i with
  | coAppend => exact ⟨_, rfl⟩
  | chLen sel arg | chType sel arg | chData sel arg | chCrc sel arg | chDatastr sel arg | chBytes sel arg =>
    cases sel with
    | entry => cases h
    | wc => exact ⟨_, congrArg (accept s) (withSubject_wc arg s _)⟩
  | _ => cases h

/-- Settles O24: the operand is read first, and its absence is the command's end. -/
theorem absentOperandsFault : Obligations.AbsentOperandsFault := by
  refine ⟨fun i s hf hr htr => ?_, fun i s hf hr hwc => ?_, fun s arg hf hlen i hi => ?_⟩
  · obtain ⟨k, hk⟩ := exec_of_readsTr s hr
    rw [hk, accept_of_running hf, withType_of_empty htr]
    rfl
  · obtain ⟨k, hk⟩ := exec_of_readsWc s hr
    rw [hk, accept_of_running hf, withWorkingChunk_of_empty hwc]
    rfl
  · obtain ⟨k, hk⟩ := exec_of_formatS s hi
    rw [hk, accept_of_running hf, withSubject_of_error (subject_eq_error.mpr (.inr ⟨rfl, hlen, rfl⟩))]
    rfl

/-! ### STATUS as the host reads it -/

theorem statusWord_ec (st : Status) : (statusWord st).extractLsb' 0 4 = codeNumber st.ec := calc
  (statusWord st).extractLsb' 0 4 = (0#3 ++ codeNumber st.ec).extractLsb' 0 4 := BitVec.extractLsb'_append_eq_of_add_le (by decide)
  _ = codeNumber st.ec := BitVec.extractLsb'_append_eq_right

theorem statusWord_reserved (st : Status) : (statusWord st).extractLsb' 4 3 = 0#3 := calc
  (statusWord st).extractLsb' 4 3 = (0#3 ++ codeNumber st.ec).extractLsb' 4 3 := BitVec.extractLsb'_append_eq_of_add_le (by decide)
  _ = 0#3 := BitVec.extractLsb'_append_eq_left

theorem statusWord_f (st : Status) : (statusWord st).getLsbD 7 = st.f :=
  (BitVec.getLsbD_append (x := BitVec.ofBool st.f) (y := 0#3 ++ codeNumber st.ec) (i := 7)).trans (by simp)

/-- Settles O17: the fields are the three parts that statusWord appends; the code numbers are those of the table. -/
theorem statusWordLayout : Obligations.StatusWordLayout :=
  ⟨fun st => ⟨statusWord_ec st, statusWord_reserved st, statusWord_f st⟩, rfl, rfl, rfl, rfl, rfl, rfl, rfl, rfl, rfl, rfl, rfl⟩

end Sys2Proof.Machine

/-!
PROOFS. The family 20_memory: the input buffer, which only the host writes (R52) and only seven commands read (R51), and the output buffer, which a command
replaces whole or keeps (R57); the host's write (R52) and read (R53).
-/

namespace Sys2Proof.Machine

/-! ### No command writes the input buffer -/

/-- `t` has the input buffer, the capacities and the host's later moves of `s`. -/
def KeepsInput (s t : State) : Prop := t.ibuf = s.ibuf ∧ t.params = s.params ∧ t.port = s.port

theorem KeepsInput.refl (s : State) : KeepsInput s s := ⟨rfl, rfl, rfl⟩

theorem Writes.keepsInput {a : Access} {s u : State} (h : Writes a s u) : KeepsInput s u := by
  cases h <;> exact .refl s

theorem Ends.keepsInput {a : Access} {s t : State} (h : Ends a s (.next t)) : KeepsInput s t := by
  cases h with
  | error | fault => exact .refl s
  | ok hu => exact hu.keepsInput

theorem exec_keepsInput {i : Instr} {s t : State} (h : exec i s = .next t) : KeepsInput s t := by
  rcases exec_eq_next h with ⟨-, rfl⟩ | ⟨-, he⟩
  · exact .refl _
  · exact he.keepsInput

/-- Settles O18: no form of a write is one of the input buffer, so the memory itself is the same. -/
theorem commandsKeepTheInputBuffer : Obligations.CommandsKeepTheInputBuffer := by
  intro i s t h
  obtain ⟨hibuf, hparams, hport⟩ := exec_keepsInput h
  exact ⟨fun a => by rw [hibuf], by rw [hibuf], by rw [inputBytes_eq, inputBytes_eq, hibuf], hparams, hport⟩

/-! ### The output buffer is kept -/

theorem Writes.obuf_eq {a : Access} {s u : State} (h : Writes a s u) (hw : a.writesObuf = false) : u.obuf = s.obuf := by
  cases h with
  | output hw' => simp [hw] at hw'
  | _ => rfl

/-- An error and a fault keep the output buffer, and so does a response of a command without the column of the table. -/
theorem Ends.obuf_eq {a : Access} {s t : State} (h : Ends a s (.next t)) (hk : a.writesObuf = false ∨ t.status.ec ≠ .ok) :
    t.obuf = s.obuf := by
  cases h with
  | error | fault => rfl
  | ok hu =>
    rcases hk with hw | hne
    · exact hu.obuf_eq hw
    · exact absurd rfl hne

theorem exec_obuf_eq {i : Instr} {s t : State} (h : exec i s = .next t)
    (hk : (access i).writesObuf = false ∨ t.status.ec ≠ .ok ∨ s.status.f = true) : t.obuf = s.obuf := by
  rcases exec_eq_next h with ⟨-, rfl⟩ | ⟨hf, he⟩
  · rfl
  · exact he.obuf_eq (by simpa [hf] using hk)

/-! ### The output buffer is replaced -/

theorem withType_of_some {s : State} {q : ChunkType} (h : s.tr = some q) (k : ChunkType → Result) : withType s k = k q := by
  simp [withType, h]

theorem withSubject_of_some {sel : Subject} {arg : Word} {s : State} {c : Chunk} (h : subjectOf sel arg s = some c)
    (k : Chunk → Result) : withSubject sel arg s k = k c := by
  simp [withSubject, subject_eq_ok_iff.mpr h]

theorem withSubject_of_none {sel : Subject} {arg : Word} {s : State} (h : subjectOf sel arg s = none) (k : Chunk → Result) :
    ∃ r, withSubject sel arg s k = takeFault s r := by
  cases hs : subject sel arg s with
  | error r => exact ⟨r, withSubject_of_error hs k⟩
  | ok c => simp [subject_eq_ok_iff.mp hs] at h

/-- RES after a command that produces bytes: the number of chunks for the stream, else 0 (43_container R209; 40_chunk_type R115, 42_chunk_record R174, R176,
R177). -/
def outputRes : Instr → State → Word
  | .coBytes, s => countWord s.cl.length
  | _, _ => 0#32

theorem outputRes_obuf (i : Instr) (s : State) (old : Memory) : outputRes i { s with obuf := old } = outputRes i s := by
  cases i <;> rfl

/-- A command that produces bytes ends in the whole-buffer write of them. -/
theorem exec_of_outputOf_eq_some {i : Instr} {s : State} {B : List Byte} (hf : s.status.f = false) (h : outputOf i s = some B) :
    exec i s = emit s B (outputRes i s) := by
  cases i with
  | ctTostr =>
    obtain ⟨q, hq, rfl⟩ := Option.map_eq_some_iff.mp h
    exact (accept_of_running hf _).trans (withType_of_some hq _)
  | chData sel arg | chDatastr sel arg | chBytes sel arg =>
    obtain ⟨c, hc, rfl⟩ := Option.map_eq_some_iff.mp h
    exact (accept_of_running hf _).trans (withSubject_of_some hc _)
  | coBytes =>
    cases h
    exact accept_of_running hf _
  | _ => cases h

/-- A command that may write the output buffer and produces no bytes lacks its operand, which is a fault. -/
theorem exec_of_outputOf_eq_none {i : Instr} {s : State} (hf : s.status.f = false) (hw : (access i).writesObuf = true)
    (h : outputOf i s = none) : ∃ r, exec i s = takeFault s r := by
  cases i with
  | ctTostr => exact ⟨_, (accept_of_running hf _).trans (withType_of_empty (Option.map_eq_none_iff.mp h) _)⟩
  | chData sel arg | chDatastr sel arg | chBytes sel arg =>
    obtain ⟨r, hr⟩ := withSubject_of_none (Option.map_eq_none_iff.mp h) _
    exact ⟨r, (accept_of_running hf _).trans hr⟩
  | coBytes => cases h
  | chLen sel | chType sel | chCrc sel => cases sel <;> cases hw
  | _ => cases hw

/-- A success of a command that writes the output buffer is the success of a whole-buffer write of the bytes it produces. -/
theorem exec_eq_emit_of_ok {i : Instr} {s t : State} (hf : s.status.f = false) (hw : (access i).writesObuf = true)
    (h : exec i s = .next t) (ht : t.status.ec = .ok) : ∃ B, outputOf i s = some B ∧ emit s B (outputRes i s) = .next t := by
  cases hB : outputOf i s with
  | some B => exact ⟨B, rfl, exec_of_outputOf_eq_some hf hB ▸ h⟩
  | none =>
    obtain ⟨r, hr⟩ := exec_of_outputOf_eq_none hf hw hB
    obtain rfl := takeFault_eq_next.mp (hr ▸ h)
    cases ht

/-- What a successful whole-buffer write leaves in the output buffer, and that the bytes fit (20_memory R57). -/
theorem emit_ok {s t : State} {B : List Byte} {v : Word} (h : emit s B v = .next t) (ht : t.status.ec = .ok) :
    fits s.params.obufCap B.length = true ∧ t.obuf = Memory.ofBytes B := by
  rcases emit_eq_next.mp h with ⟨hfit, rfl⟩ | ⟨-, rfl⟩
  · exact ⟨hfit, rfl⟩
  · cases ht

/-- Settles O20: a command writes the output buffer only by a whole-buffer write that fits, and neither the bytes nor RES come from its old content. -/
theorem outputBufferIsReplacedWholeOrKept : Obligations.OutputBufferIsReplacedWholeOrKept := by
  refine fun i s t h => ⟨fun hk => ?_, fun hw ht hf => ?_⟩
  · have hobuf := exec_obuf_eq h hk
    exact ⟨fun a => by rw [hobuf], by rw [hobuf]⟩
  · obtain ⟨B, hB, hemit⟩ := exec_eq_emit_of_ok hf hw h ht
    obtain ⟨hfit, hobuf⟩ := emit_ok hemit ht
    refine ⟨⟨B, hB, hfit, by simp [hobuf], by simp [hobuf], by simp [hobuf]⟩, fun old => ?_⟩
    have hB' : outputOf i { s with obuf := old } = some B := (outputOf_obuf i s old).trans hB
    rw [exec_of_outputOf_eq_some (s := { s with obuf := old }) hf hB', outputRes_obuf]
    exact emit_obuf hemit ht old

/-! ### Commands that do not read the input buffer commute with a change of it -/

/-- A result with the input buffer of its next state replaced. -/
def withIbuf (m : Memory) : Result → Result
  | .next t => .next (setIbuf t m)
  | .fault x => .fault x
  | .refused x => .refused x

section
variable {s : State} {m : Memory}

theorem accept_setIbuf {k k' : Result} (hk : k' = withIbuf m k) : accept (setIbuf s m) k' = withIbuf m (accept s k) := by
  subst hk
  cases hf : s.status.f with
  | true => rw [accept_of_faulted hf, accept_of_faulted (s := setIbuf s m) hf]; rfl
  | false => rw [accept_of_running hf, accept_of_running (s := setIbuf s m) hf]

theorem emit_setIbuf (B : List Byte) (v : Word) : emit (setIbuf s m) B v = withIbuf m (emit s B v) := by
  unfold emit
  rw [setIbuf_params]
  split <;> rfl

theorem withType_setIbuf {k k' : ChunkType → Result} (hk : ∀ q, k' q = withIbuf m (k q)) :
    withType (setIbuf s m) k' = withIbuf m (withType s k) := by
  unfold withType
  rw [setIbuf_tr]
  cases s.tr with
  | none => rfl
  | some q => exact hk q

theorem withWorkingChunk_setIbuf {k k' : Chunk → Result} (hk : ∀ c, k' c = withIbuf m (k c)) :
    withWorkingChunk (setIbuf s m) k' = withIbuf m (withWorkingChunk s k) := by
  unfold withWorkingChunk
  rw [setIbuf_wc]
  cases s.wc with
  | none => rfl
  | some c => exact hk c

theorem subject_setIbuf (sel : Subject) (arg : Word) : subject sel arg (setIbuf s m) = subject sel arg s := rfl

theorem withSubject_setIbuf {sel : Subject} {arg : Word} {k k' : Chunk → Result} (hk : ∀ c, k' c = withIbuf m (k c)) :
    withSubject sel arg (setIbuf s m) k' = withIbuf m (withSubject sel arg s k) := by
  unfold withSubject
  rw [subject_setIbuf]
  cases subject sel arg s with
  | error r => rfl
  | ok c => exact hk c

theorem constructType_setIbuf (r : Except ErrorKind ChunkType) : constructType (setIbuf s m) r = withIbuf m (constructType s r) := by
  cases r <;> rfl

theorem queryType_setIbuf (p : ChunkType → Bool) : queryType (setIbuf s m) p = withIbuf m (queryType s p) :=
  accept_setIbuf (withType_setIbuf fun _ => rfl)

theorem execCoAppend_setIbuf : execCoAppend (setIbuf s m) = withIbuf m (execCoAppend s) := by
  refine accept_setIbuf (withWorkingChunk_setIbuf fun c => ?_)
  rw [setIbuf_cl, setIbuf_params]
  split <;> rfl

/-- A command that does not read the input buffer does the same for every content of it, and leaves that content. -/
theorem exec_setIbuf {i : Instr} (h : (access i).readsInput = false) : exec i (setIbuf s m) = withIbuf m (exec i s) := by
  cases i with
  | ctParse arg => exact accept_setIbuf (constructType_setIbuf _)
  | ctBytes => exact accept_setIbuf (withType_setIbuf fun _ => rfl)
  | ctTostr => exact accept_setIbuf (withType_setIbuf fun _ => emit_setIbuf _ _)
  | ctIscrit => exact queryType_setIbuf ctIsCritical
  | ctIspub => exact queryType_setIbuf ctIsPublic
  | ctIsrsv => exact queryType_setIbuf ctIsReservedBitValid
  | ctIssafe => exact queryType_setIbuf ctIsSafeToCopy
  | ctIsvalid => exact queryType_setIbuf ctIsValid
  | chLen sel arg | chType sel arg | chCrc sel arg => exact accept_setIbuf (withSubject_setIbuf fun _ => rfl)
  | chData sel arg | chDatastr sel arg | chBytes sel arg => exact accept_setIbuf (withSubject_setIbuf fun _ => emit_setIbuf _ _)
  | coClear | coCount => exact accept_setIbuf rfl
  | coAppend => exact execCoAppend_setIbuf
  | coBytes => exact accept_setIbuf (emit_setIbuf _ _)
  | ctParsestr | crcCalc | chNew | chParse | coParse | coRemove | coFind => cases h

end

/-- Settles O21: every operation that such a command is made of commutes with a change of the input buffer. -/
theorem otherCommandsIgnoreTheInputBuffer : Obligations.OtherCommandsIgnoreTheInputBuffer := by
  intro i s t m hr h
  calc exec i (setIbuf s m) = withIbuf m (exec i s) := exec_setIbuf hr
    _ = .next (setIbuf t m) := by rw [h]; rfl

/-! ### The host's moves on the buffers -/

theorem step_of_idle {s : State} (h : s.port = []) : step s = .next s := by
  simp [step, h, idle]

theorem step_of_readResponse {s : State} {rest : List HostEvent} (h : s.port = .readResponse :: rest) : step s = .next (setPort s rest) := by
  simp [step, h, hostRead]

theorem step_of_writeInput {s : State} {B : List Byte} {rest : List HostEvent} (h : s.port = .writeInput B :: rest) :
    step s = hostWrite B (setPort s rest) := by
  simp [step, h]

theorem hostWrite_of_fits {s : State} {B : List Byte} (h : fits s.params.ibufCap B.length = true) :
    hostWrite B s = .next (setIbuf s (Memory.ofBytes B)) := by
  simp [hostWrite, h]

theorem hostWrite_of_not_fits {s : State} {B : List Byte} (h : fits s.params.ibufCap B.length = false) :
    hostWrite B s = .fault .hostWriteTooLong := by
  simp [hostWrite, h]

/-- Settles O7: what fits becomes the whole memory, whose bytes, length and reads are those of the written list; what does not fit stops the model. -/
theorem hostWriteReplacesTheInputBuffer : Obligations.HostWriteReplacesTheInputBuffer := by
  refine ⟨fun s B rest hp hfit => ?_, fun s B rest hp hfit => ?_⟩
  · exact ⟨setIbuf (setPort s rest) (Memory.ofBytes B), (step_of_writeInput hp).trans (hostWrite_of_fits hfit), rfl,
      length_ofBytes B, read_ofBytes B, by simp [inputBytes_eq]⟩
  · exact (step_of_writeInput hp).trans (hostWrite_of_not_fits hfit)

/-- Settles O8: both steps answer the state they start in, and what the host reads is no function of the port. -/
theorem hostReadAndIdleChangeNothing : Obligations.HostReadAndIdleChangeNothing :=
  ⟨fun _ _ hp => ⟨step_of_readResponse hp, rfl⟩, fun _ => step_of_idle⟩

end Sys2Proof.Machine

/-!
PROOFS. The family 30_encoding: the encoder and the decoder are inverse (R88 to R90, R92); the legal words, the rows of the opcode table they match (R91), and
how a step treats a command word.
-/

namespace Sys2Proof

/-! ### Decoding the fields of a command -/

theorem decodeFields_of_lookup {f : Fields} {shape : Shape} (h : opcodeMap.lookup f.op = some shape) :
    decodeFields f = decodeShape f shape := by
  simp [decodeFields, h]

theorem decodeFields_fieldsN {op : BitVec 8} {i : Instr} (h : opcodeMap.lookup op = some (.n i)) :
    decodeFields (fieldsN op) = .instr i :=
  (decodeFields_of_lookup (f := fieldsN op) h).trans rfl

theorem decodeFields_fieldsT {op : BitVec 8} {mk : Word → Instr} (h : opcodeMap.lookup op = some (.t mk)) (arg : Word) :
    decodeFields (fieldsT op arg) = .instr (mk arg) :=
  (decodeFields_of_lookup (f := fieldsT op arg) h).trans rfl

theorem decodeFields_fieldsS {op : BitVec 8} {mk : Subject → Word → Instr} (h : opcodeMap.lookup op = some (.s mk)) (sel : Subject)
    (arg : Word) : decodeFields (fieldsS op sel arg) = .instr (mk sel arg) := by
  cases sel <;> exact (decodeFields_of_lookup (f := fieldsS op _ arg) h).trans rfl

/-- The opcode map holds every command under the opcode and in the format that the encoder writes. -/
theorem decodeFields_fields (i : Instr) : decodeFields i.fields = .instr i := by
  cases i with
  | ctParse arg => exact decodeFields_fieldsT rfl arg
  | chLen sel arg => exact decodeFields_fieldsS rfl sel arg
  | chType sel arg => exact decodeFields_fieldsS rfl sel arg
  | chData sel arg => exact decodeFields_fieldsS rfl sel arg
  | chCrc sel arg => exact decodeFields_fieldsS rfl sel arg
  | chDatastr sel arg => exact decodeFields_fieldsS rfl sel arg
  | chBytes sel arg => exact decodeFields_fieldsS rfl sel arg
  | _ => exact decodeFields_fieldsN rfl

theorem splitWord_encode (i : Instr) : splitWord (encode i) = i.fields :=
  splitWord_packFields i.fields

/-- Settles O1: packing loses no field, and the fields of a command decode to it. Well-formedness is not needed: every command has it (Laws/PerInstr.lean). -/
theorem decodeOfEncodeIsTheCommand : Obligations.DecodeOfEncodeIsTheCommand := by
  intro i _
  rw [decode, splitWord_encode, decodeFields_fields]

/-! ### Encoding what a word decodes to -/

/-- The encoder gives the commands of this shape the opcode `op` and the fields of the shape's format. -/
def Shape.EncodesAs (op : BitVec 8) : Shape → Prop
  | .n i => i.fields = fieldsN op
  | .t mk => ∀ arg, (mk arg).fields = fieldsT op arg
  | .s mk => ∀ sel arg, (mk sel arg).fields = fieldsS op sel arg

/-- The encoder agrees with every row of the opcode map. -/
theorem encodesAs_of_mem_opcodeMap : ∀ row ∈ opcodeMap, row.2.EncodesAs row.1 := by
  simp [opcodeMap, Shape.EncodesAs, Instr.fields]

/-- A word that decodes has exactly the fields of its command. -/
theorem fields_of_decode_eq_instr {w : CmdWord} {i : Instr} (h : decode w = .instr i) : i.fields = splitWord w := by
  obtain ⟨shape, hrow, hshape⟩ := decode_eq_instr h
  have henc : shape.EncodesAs (splitWord w).op := encodesAs_of_mem_opcodeMap _ hrow
  rcases decodeShape_eq_instr hshape with ⟨j, rfl, rfl, hf⟩ | ⟨mk, rfl, rfl, hf⟩ | ⟨mk, sel, rfl, rfl, hf⟩
  · exact henc.trans hf.symm
  · exact (henc _).trans hf.symm
  · exact (henc _ _).trans hf.symm

/-- Settles O2: the word's fields are those of the command, and packing them gives the word back. -/
theorem encodeOfDecodeIsTheWord : Obligations.EncodeOfDecodeIsTheWord := by
  intro w i h
  rw [encode, fields_of_decode_eq_instr h, packFields_splitWord]

/-! ### The word as a number -/

theorem packFields_toNat (f : Fields) :
    (packFields f).toNat = f.arg.toNat * 2 ^ 16 + (f.rsv.toNat * 2 ^ 9 + (f.s.toNat * 2 ^ 8 + f.op.toNat)) := by
  simp only [packFields, Machine.toNat_append_eq_add, BitVec.toNat_ofBool]

/-- No command has a reserved bit set. -/
theorem Instr.fields_rsv (i : Instr) : i.fields.rsv = 0#7 := by
  cases i <;> rfl

theorem encode_toNat (i : Instr) :
    (encode i).toNat = i.fields.op.toNat + i.fields.s.toNat * 2 ^ 8 + i.fields.arg.toNat * 2 ^ 16 := by
  rw [encode, packFields_toNat, i.fields_rsv, BitVec.toNat_zero]
  omega

/-- Settles O3: the weights of the fields are those of three appends, and the reserved field is 0. -/
theorem commandWordIsTheSumOfItsFields : Obligations.CommandWordIsTheSumOfItsFields :=
  ⟨encode_toNat, rfl, rfl, rfl, rfl⟩

/-! ### The legal words -/

/-- The format of the commands of a shape (30_encoding R89). -/
def Shape.format : Shape → Format
  | .n _ => .n
  | .t _ => .t
  | .s _ => .s

/-- Where a format requires bits to be 0, they are (the last three clauses of 30_encoding R91). -/
def Fields.FitsFormat (f : Fields) (fmt : Format) : Prop :=
  f.rsv = 0#7 ∧ (f.s = true → fmt = .s) ∧ (fmt = .n → f.arg = 0#32)

/-- The opcode map and the table of formats have the same opcodes, with the same formats. -/
theorem format_lookup_opcodeMap : ∀ op, (opcodeMap.lookup op).map Shape.format = opcodeFormat op := by
  decide +kernel

/-- The decoder's checks for a shape are those of its format. -/
theorem decodeShape_isInstr_iff (f : Fields) (shape : Shape) :
    (∃ i, decodeShape f shape = .instr i) ↔ f.FitsFormat shape.format := by
  constructor
  · rintro ⟨i, h⟩
    rcases decodeShape_eq_instr h with ⟨j, rfl, -, hf⟩ | ⟨mk, rfl, -, hf⟩ | ⟨mk, sel, rfl, -, hf⟩ <;> rw [hf]
    · exact ⟨rfl, nofun, fun _ => rfl⟩
    · exact ⟨rfl, nofun, nofun⟩
    · exact ⟨rfl, fun _ => rfl, nofun⟩
  · rintro ⟨hrsv, hs, harg⟩
    cases shape with
    | n i => exact ⟨i, by simp_all [decodeShape, Shape.format]⟩
    | t mk => exact ⟨mk f.arg, by simp_all [decodeShape, Shape.format]⟩
    | s mk => exact ⟨_, if_neg (not_not_intro hrsv)⟩

/-- A word is legal exactly when its opcode has a format that its other fields fit. -/
theorem decode_isInstr_iff (w : CmdWord) :
    (∃ i, decode w = .instr i) ↔ ∃ fmt, opcodeFormat (splitWord w).op = some fmt ∧ (splitWord w).FitsFormat fmt := by
  rw [← format_lookup_opcodeMap, decode, decodeFields]
  cases opcodeMap.lookup (splitWord w).op with
  | none => simp
  | some shape => simp [decodeShape_isInstr_iff]

/-! ### The rows of the opcode table -/

/-- The bits that a format fixes, as the fields of a mask (30_encoding R91). -/
def Format.fixedBits : Format → Fields
  | .n => ⟨0xFF#8, true, 0x7F#7, 0xFFFFFFFF#32⟩
  | .t => ⟨0xFF#8, true, 0x7F#7, 0#32⟩
  | .s => ⟨0xFF#8, false, 0x7F#7, 0#32⟩

/-- The row of the opcode table for an opcode with this format. -/
def TableRow.ofOpcode (op : BitVec 8) (fmt : Format) : TableRow := ⟨packFields fmt.fixedBits, packFields (fieldsN op)⟩

/-- The opcode table has one row for each opcode that has a format. -/
theorem mem_tableRows_iff (r : TableRow) : r ∈ tableRows ↔ ∃ op fmt, opcodeFormat op = some fmt ∧ r = .ofOpcode op fmt := by
  have hrow : ∀ r ∈ tableRows, (opcodeFormat (splitWord r.pat).op).map (.ofOpcode (splitWord r.pat).op) = some r := by decide +kernel
  have hop : ∀ op, ∀ r ∈ (opcodeFormat op).map (TableRow.ofOpcode op), r ∈ tableRows := by decide +kernel
  constructor
  · intro hr
    obtain ⟨fmt, hfmt, h⟩ := Option.map_eq_some_iff.mp (hrow r hr)
    exact ⟨_, fmt, hfmt, h.symm⟩
  · rintro ⟨op, fmt, hfmt, rfl⟩
    exact hop op _ (by simp [hfmt])

theorem packFields_inj {f g : Fields} : packFields f = packFields g ↔ f = g :=
  (Function.LeftInverse.injective splitWord_packFields).eq_iff

theorem packFields_surjective : Function.Surjective packFields :=
  Function.RightInverse.surjective packFields_splitWord

/-- A mask acts on each field of a word by itself. -/
theorem packFields_and (f g : Fields) :
    packFields f &&& packFields g = packFields ⟨f.op &&& g.op, f.s && g.s, f.rsv &&& g.rsv, f.arg &&& g.arg⟩ :=
  BitVec.and_append.trans (by simp only [packFields, BitVec.and_append, BitVec.ofBool_and_ofBool])

/-- A word matches a row exactly when it has the row's opcode and fits the row's format. -/
theorem and_mask_eq_pat_ofOpcode_iff (w : CmdWord) (op : BitVec 8) (fmt : Format) :
    w &&& (TableRow.ofOpcode op fmt).mask = (TableRow.ofOpcode op fmt).pat ↔
      (splitWord w).op = op ∧ (splitWord w).FitsFormat fmt := by
  obtain ⟨f, rfl⟩ := packFields_surjective w
  rw [TableRow.ofOpcode, packFields_and, packFields_inj, splitWord_packFields]
  have hop : f.op &&& 0xFF#8 = f.op := BitVec.and_allOnes
  have hrsv : f.rsv &&& 0x7F#7 = f.rsv := BitVec.and_allOnes
  have harg : f.arg &&& 0xFFFFFFFF#32 = f.arg := BitVec.and_allOnes
  cases fmt <;> simp [Format.fixedBits, fieldsN, Fields.FitsFormat, hop, hrsv, harg, and_left_comm, and_comm]

/-- The table gives each opcode one row at most, so that a word which fits its opcode's format matches that row alone. -/
theorem decode_isInstr_iff_existsUnique_row (w : CmdWord) :
    (∃ i, decode w = .instr i) ↔ ∃! r, r ∈ tableRows ∧ w &&& r.mask = r.pat := by
  rw [decode_isInstr_iff]
  constructor
  · rintro ⟨fmt, hfmt, hfit⟩
    have hmem := (mem_tableRows_iff _).mpr ⟨_, fmt, hfmt, rfl⟩
    have hmatch := (and_mask_eq_pat_ofOpcode_iff w _ fmt).mpr ⟨rfl, hfit⟩
    refine ⟨_, ⟨hmem, hmatch⟩, ?_⟩
    rintro r ⟨hr, hw⟩
    obtain ⟨op, fmt', hfmt', rfl⟩ := (mem_tableRows_iff r).mp hr
    obtain ⟨rfl, -⟩ := (and_mask_eq_pat_ofOpcode_iff ..).mp hw
    obtain rfl : fmt = fmt' := Option.some.inj (hfmt.symm.trans hfmt')
    rfl
  · rintro ⟨r, ⟨hr, hw⟩, -⟩
    obtain ⟨op, fmt, hfmt, rfl⟩ := (mem_tableRows_iff r).mp hr
    obtain ⟨rfl, hfit⟩ := (and_mask_eq_pat_ofOpcode_iff ..).mp hw
    exact ⟨fmt, hfmt, hfit⟩

/-- The clauses of 30_encoding R91 on the bits of the word, read off its fields. -/
theorem decode_isInstr_iff_clauses (w : CmdWord) :
    (∃ i, decode w = .instr i) ↔
      (opcodeFormat (w.extractLsb' 0 8)).isSome = true ∧ w.extractLsb' 9 7 = 0#7 ∧
      (w.getLsbD 8 = true → opcodeFormat (w.extractLsb' 0 8) = some .s) ∧
      (opcodeFormat (w.extractLsb' 0 8) = some .n → w.extractLsb' 16 32 = 0#32) := by
  rw [decode_isInstr_iff]
  cases h : opcodeFormat (w.extractLsb' 0 8) <;> simp [splitWord, Fields.FitsFormat, h]

end Sys2Proof

/-! ### How a step treats a command word -/

namespace Sys2Proof.Machine

theorem step_of_instr {s : State} {w : CmdWord} {rest : List HostEvent} {i : Instr} (hp : s.port = .command w :: rest)
    (hw : decode w = .instr i) : step s = exec i (setPort s rest) := by
  simp [step, hp, hw]

theorem step_of_reject {s : State} {w : CmdWord} {rest : List HostEvent} {why : Reject} (hp : s.port = .command w :: rest)
    (hw : decode w = .reject why) : step s = illegalCommand (setPort s rest) := by
  simp [step, hp, hw]

theorem illegalCommand_of_running {s : State} (hf : s.status.f = false) : illegalCommand s = takeFault s .illegalCommand :=
  accept_of_running hf _

/-- What is not decoded to a command is rejected. -/
theorem exists_reject_of_not_instr {w : CmdWord} (h : ¬ ∃ i, decode w = .instr i) : ∃ why, decode w = .reject why := by
  cases hw : decode w with
  | instr i => exact absurd ⟨i, hw⟩ h
  | reject why => exact ⟨why, rfl⟩

/-- Settles O4: both descriptions of the legal words say that the opcode has a format and the fields fit it; a rejected word ends in `illegalCommand`. -/
theorem illegalWordsFaultLegalWordsMatchOneRow : Obligations.IllegalWordsFaultLegalWordsMatchOneRow := by
  refine ⟨decode_isInstr_iff_clauses, decode_isInstr_iff_existsUnique_row, fun s w rest hp hf h => ?_⟩
  obtain ⟨why, hw⟩ := exists_reject_of_not_instr h
  exact (step_of_reject hp hw).trans (illegalCommand_of_running hf)

/-- Settles O5: each word is decoded by evaluation. -/
theorem sampleWordsDecode : Obligations.SampleWordsDecode := by
  unfold Obligations.SampleWordsDecode
  decide

/-- Settles O6: the state in which the command runs differs from `s` in the port alone. -/
theorem stepRunsTheDecodedCommand : Obligations.StepRunsTheDecodedCommand :=
  fun _ _ _ _ => step_of_instr

end Sys2Proof.Machine

/-!
PROOFS. The family 40_chunk_type: letters and their bits (R110), the flags of a constructed type (R123), the order of types (R121), and the commands of the
chunk-type unit (R112 to R120).
-/

namespace Sys2Proof.Machine

/-! ### Letters and their bits -/

theorem alpha_iff (b : Byte) : alpha b = true ↔ (0x41 ≤ b.toNat ∧ b.toNat ≤ 0x5A) ∨ (0x61 ≤ b.toNat ∧ b.toNat ≤ 0x7A) := by
  simp [alpha, BitVec.le_def]

/-- A bit of a byte as a binary digit of its number. -/
theorem getLsbD_eq_decide (b : Byte) (k : Nat) : b.getLsbD k = decide (b.toNat / 2 ^ k % 2 = 1) :=
  Nat.testBit_eq_decide_div_mod_eq

/-- The flag bit is bit 5 (30_encoding R82). -/
theorem caseBit_eq_getLsbD (b : Byte) : caseBit b = b.getLsbD 5 := by
  have hand : b &&& 0x20#8 = if b.getLsbD 5 then 0x20#8 else 0#8 := BitVec.and_twoPow b 5
  rw [caseBit, hand]
  cases b.getLsbD 5 <;> rfl

/-- The flag bit of a letter is set exactly in the lowercase range. -/
theorem caseBit_of_alpha {b : Byte} (h : alpha b = true) : caseBit b = decide (0x61 ≤ b.toNat) := by
  rw [alpha_iff] at h
  rw [caseBit_eq_getLsbD, getLsbD_eq_decide, decide_eq_decide]
  omega

/-- The flag bit of a letter is clear exactly in the uppercase range. -/
theorem not_caseBit_of_alpha {b : Byte} (h : alpha b = true) : (!caseBit b) = decide (b.toNat ≤ 0x5A) := by
  rw [caseBit_of_alpha h, ← decide_not, decide_eq_decide]
  rw [alpha_iff] at h
  omega

theorem getLsbD_seven_of_alpha {b : Byte} (h : alpha b = true) : b.getLsbD 7 = false := by
  rw [alpha_iff] at h
  rw [getLsbD_eq_decide, decide_eq_false_iff_not]
  omega

theorem getLsbD_six_of_alpha {b : Byte} (h : alpha b = true) : b.getLsbD 6 = true := by
  rw [alpha_iff] at h
  rw [getLsbD_eq_decide, decide_eq_true_iff]
  omega

/-- Setting the clear flag bit of a byte adds its weight. -/
theorem toNat_or_caseBit {b : Byte} (hc : caseBit b = false) (hb : b.toNat ≤ 0x5A) : (b ||| 0x20#8).toNat = b.toNat + 0x20 := by
  have hand : b &&& 0x20#8 = 0#8 := by simpa [caseBit] using hc
  rw [← BitVec.add_eq_or_of_and_eq_zero b 0x20#8 hand]
  exact BitVec.toNat_add_of_lt (Nat.lt_of_le_of_lt (Nat.add_le_add_right hb 0x20) (by decide))

/-- Settles O26: a letter's number lies in one of two ranges, which fix its upper bits; setting the flag bit goes from the first range to the second. -/
theorem lettersAreTwoByteRanges : Obligations.LettersAreTwoByteRanges := by
  refine ⟨alpha_iff, fun b h => ⟨getLsbD_seven_of_alpha h, getLsbD_six_of_alpha h⟩, fun b h hc => ?_⟩
  have hupper : b.toNat ≤ 0x5A := by simpa [hc] using not_caseBit_of_alpha h
  have hlower := toNat_or_caseBit hc hupper
  refine ⟨?_, hlower⟩
  rw [alpha_iff] at h ⊢
  omega

/-! ### The flags of a type -/

theorem alphabetic_iff (t : ChunkType) : ChunkType.alphabetic t = true ↔
    alpha t.b0 = true ∧ alpha t.b1 = true ∧ alpha t.b2 = true ∧ alpha t.b3 = true := by
  simp [ChunkType.alphabetic, and_assoc]

/-- For a constructed type, validity is the reserved bit alone (40_chunk_type R120). -/
theorem ctIsValid_of_alphabetic {t : ChunkType} (h : ChunkType.alphabetic t = true) : ctIsValid t = ctIsReservedBitValid t := by
  simp [ctIsValid, h]

/-- Settles O27: each flag is the flag bit of one letter, and validity is the third flag. -/
theorem flagsFollowTheCasePattern : Obligations.FlagsFollowTheCasePattern := by
  intro t h
  obtain ⟨h0, h1, h2, h3⟩ := (alphabetic_iff t).mp h
  have hreserved : ctIsReservedBitValid t = decide (t.b2.toNat ≤ 0x5A) := not_caseBit_of_alpha h2
  exact ⟨not_caseBit_of_alpha h0, not_caseBit_of_alpha h1, hreserved, caseBit_of_alpha h3, (ctIsValid_of_alphabetic h).trans hreserved⟩

/-! ### The order of types -/

theorem ctEq_iff (a b : ChunkType) : ctEq a b = true ↔ a = b := by
  cases a
  cases b
  simp [ctEq, and_assoc]

theorem append_lt_append_of_lt {m n : Nat} {x x' : BitVec m} (h : x < x') (y y' : BitVec n) : x ++ y < x' ++ y' := by
  have hx : (x.toNat + 1) * 2 ^ n ≤ x'.toNat * 2 ^ n := Nat.mul_le_mul_right _ h
  have hy := y.isLt
  rw [BitVec.lt_def, toNat_append_eq_add, toNat_append_eq_add]
  rw [Nat.add_one_mul] at hx
  omega

/-- Words appended to words are ordered lexicographically. -/
theorem append_lt_append_iff {m n : Nat} (x x' : BitVec m) (y y' : BitVec n) : x ++ y < x' ++ y' ↔ x < x' ∨ x = x' ∧ y < y' := by
  rcases BitVec.lt_trichotomy x x' with h | rfl | h
  · exact iff_of_true (append_lt_append_of_lt h y y') (.inl h)
  · rw [BitVec.lt_def, toNat_append_eq_add, toNat_append_eq_add]
    simp [BitVec.lt_def]
  · refine iff_of_false (BitVec.lt_asymm (append_lt_append_of_lt h y' y)) ?_
    rintro (h' | ⟨rfl, -⟩)
    · exact BitVec.lt_asymm h h'
    · exact BitVec.lt_irrefl x h

theorem ctLt_iff (a b : ChunkType) : ctLt a b = true ↔ be32 a < be32 b := by
  simp only [ctLt, Bool.or_eq_true, Bool.and_eq_true, decide_eq_true_eq, beq_iff_eq]
  rw [← append_lt_append_iff, ← append_lt_append_iff, ← append_lt_append_iff]
  rfl

/-- Settles O28: both numbers are four bytes appended, and appending keeps equality and lexicographic order. -/
theorem typeOrderIsTheOrderOfBe32 : Obligations.TypeOrderIsTheOrderOfBe32 :=
  fun a b => ⟨ctEq_iff a b, (ctEq_iff a b).trans ⟨congrArg be32, be32_inj⟩, ctLt_iff a b⟩

/-! ### How a command ends while F = 0 -/

theorem respond_of_running {s : State} (hf : s.status.f = false) (v : Word) :
    respond s v = .next { s with res := v, status := ⟨.ok, false⟩ } := by
  simp [respond, setEc, setStatus, setRes, hf]

theorem raiseError_of_running {s : State} (hf : s.status.f = false) (e : ErrorKind) :
    raiseError s e = .next { s with res := 0#32, status := ⟨.error e, false⟩ } := by
  simp [raiseError, setEc, setStatus, setRes, hf]

/-- The first clause of O24 for one command: it reads TR, and TR is empty. -/
theorem exec_of_tr_empty {i : Instr} {s : State} (hr : (access i).readsTr = true) (hf : s.status.f = false) (htr : s.tr = none) :
    exec i s = .next { s with status := ⟨.fault .noOperand, true⟩ } :=
  absentOperandsFault.1 i s hf hr htr

/-! ### Constructing a type -/

theorem ctParse_of_alphabetic {t : Quad} (h : ChunkType.alphabetic t = true) : ctParse t = .ok t := by
  simp [ctParse, h]

theorem ctParse_of_not_alphabetic {t : Quad} (h : ChunkType.alphabetic t = false) : ctParse t = .error .invalidChunkType := by
  simp [ctParse, h]

theorem ctParseStr_quadBytes (t : Quad) : ctParseStr (quadBytes t) = ctParse t := rfl

/-- A string that is not the bytes of an alphabetic type is not parsed, whatever its length. -/
theorem ctParseStr_of_not_alphabetic {B : List Byte} (h : ∀ t : Quad, B = quadBytes t → ChunkType.alphabetic t = false) :
    ctParseStr B = .error .invalidChunkType := by
  unfold ctParseStr
  split
  · next b0 b1 b2 b3 => exact ctParse_of_not_alphabetic (h ⟨b0, b1, b2, b3⟩ rfl)
  · rfl

theorem accept_constructType_ok {s : State} {r : Except ErrorKind ChunkType} {t : ChunkType} (hf : s.status.f = false) (h : r = .ok t) :
    accept s (constructType s r) = .next { s with tr := some t, res := 0#32, status := ⟨.ok, false⟩ } := by
  rw [accept_of_running hf, h]
  exact respond_of_running (s := setTr s (some t)) hf 0#32

theorem accept_constructType_error {s : State} {r : Except ErrorKind ChunkType} {e : ErrorKind} (hf : s.status.f = false)
    (h : r = .error e) : accept s (constructType s r) = .next { s with res := 0#32, status := ⟨.error e, false⟩ } := by
  rw [accept_of_running hf, h]
  exact raiseError_of_running hf e

/-- The operand stands above the opcode, and the subject bit and the reserved bits are 0 (30_encoding R88). -/
theorem encode_ctParse (arg : Word) : encode (.ctParse arg) = arg ++ 0x0010#16 :=
  congrArg (arg ++ ·) (by decide : 0#7 ++ (BitVec.ofBool false ++ 0x10#8) = 0x0010#16)

theorem encode_ctParse_low (arg : Word) : (encode (.ctParse arg)).extractLsb' 0 16 = 0x0010#16 := by
  rw [encode_ctParse]
  exact BitVec.extractLsb'_append_eq_right

theorem encode_ctParse_arg (arg : Word) : (encode (.ctParse arg)).extractLsb' 16 32 = arg :=
  congrArg Fields.arg (splitWord_encode (.ctParse arg))

/-- Settles O44: the operand unpacks to the four bytes, which are parsed. -/
theorem ctParseLoadsFourLetters : Obligations.CtParseLoadsFourLetters := by
  refine ⟨fun arg => ⟨encode_ctParse_low arg, encode_ctParse_arg arg⟩, fun s t hf h => ?_, fun s t hf h => ?_⟩
  · exact accept_constructType_ok hf (by rw [toBe32_be32, ctParse_of_alphabetic h])
  · exact accept_constructType_error hf (by rw [toBe32_be32, ctParse_of_not_alphabetic h])

/-- Settles O45: the input buffer is parsed as a string. -/
theorem ctParsestrLoadsAFourLetterString : Obligations.CtParsestrLoadsAFourLetterString := by
  refine ⟨rfl, fun s t hf hB h => ?_, fun s hf h => ?_⟩
  · exact accept_constructType_ok hf (by rw [hB, ctParseStr_quadBytes, ctParse_of_alphabetic h])
  · exact accept_constructType_error hf (ctParseStr_of_not_alphabetic h)

/-! ### Reading the type -/

theorem accept_withType_respond {s : State} {t : ChunkType} (hf : s.status.f = false) (htr : s.tr = some t) (v : ChunkType → Word) :
    accept s (withType s fun q => respond s (v q)) = .next { s with res := v t, status := ⟨.ok, false⟩ } := by
  rw [accept_of_running hf, withType_of_some htr, respond_of_running hf]

/-- Settles O46: RES is the packed type. -/
theorem ctBytesPacksTheType : Obligations.CtBytesPacksTheType :=
  ⟨rfl, fun _ _ hf htr => accept_withType_respond hf htr be32, fun _ => exec_of_tr_empty rfl⟩

/-- With a type in TR, CT.TOSTR is the whole-buffer write of its bytes. -/
theorem exec_ctTostr {s : State} {t : ChunkType} (hf : s.status.f = false) (htr : s.tr = some t) :
    exec .ctTostr s = emit s (quadBytes t) 0#32 :=
  exec_of_outputOf_eq_some hf (by simp [outputOf, htr])

/-- Settles O47: the write of the four bytes succeeds exactly where they fit. -/
theorem ctTostrWritesTheFourLetters : Obligations.CtTostrWritesTheFourLetters := by
  refine ⟨rfl, fun s => exec_of_tr_empty rfl, fun s t hf htr hfit => ?_, fun s t hf htr hfit => ?_⟩
  · refine ⟨setEc (setRes (setObuf s (Memory.ofBytes (quadBytes t))) 0#32) .ok, ?_, ?_, ?_, ?_, ?_⟩
    · exact (exec_ctTostr hf htr).trans (emit_eq_next.mpr (.inl ⟨hfit, rfl⟩))
    · simp [setEc, setStatus, setRes, setObuf, hf]
    · exact bytes_ofBytes _
    · exact length_ofBytes _
    · exact read_ofBytes _
  · exact (exec_ctTostr hf htr).trans (emit_eq_next.mpr (.inr ⟨hfit, rfl⟩))

/-! ### The predicates of the type -/

theorem boolWord_caseBit (b : Byte) : boolWord (caseBit b) = if b.getLsbD 5 then 1#32 else 0#32 := by
  rw [boolWord, caseBit_eq_getLsbD]

theorem boolWord_not_caseBit (b : Byte) : boolWord (!caseBit b) = if b.getLsbD 5 then 0#32 else 1#32 := by
  rw [boolWord, caseBit_eq_getLsbD]
  cases b.getLsbD 5 <;> rfl

theorem ctIsValid_iff (t : ChunkType) : ctIsValid t = true ↔ ChunkType.alphabetic t ∧ t.b2.getLsbD 5 = false := by
  simp [ctIsValid, ctIsReservedBitValid, caseBit_eq_getLsbD]

theorem boolWord_ctIsValid (t : ChunkType) :
    boolWord (ctIsValid t) = if ChunkType.alphabetic t ∧ t.b2.getLsbD 5 = false then 1#32 else 0#32 := by
  simp only [boolWord, ctIsValid_iff]

/-- A predicate of the type in TR, with the word it shows in RES. -/
theorem queryType_of_some {s : State} {t : ChunkType} {p : ChunkType → Bool} {v : Word} (hf : s.status.f = false) (htr : s.tr = some t)
    (hv : boolWord (p t) = v) : queryType s p = .next { s with res := v, status := ⟨.ok, false⟩ } :=
  hv ▸ accept_withType_respond hf htr fun q => boolWord (p q)

/-- The five predicates read TR. -/
theorem readsTr_of_mem_predicates : ∀ i ∈ [Instr.ctIscrit, .ctIspub, .ctIsrsv, .ctIssafe, .ctIsvalid], (access i).readsTr = true := by
  decide

/-- Settles O48: each predicate shows the flag bit of one byte; safe-to-copy shows it as it is, the others inverted. -/
theorem ctPredicatesReadTheCaseBits : Obligations.CtPredicatesReadTheCaseBits := by
  refine ⟨rfl, rfl, rfl, rfl, rfl, fun s hf htr i hi => exec_of_tr_empty (readsTr_of_mem_predicates i hi) hf htr, fun s t hf htr => ?_⟩
  exact ⟨queryType_of_some hf htr (boolWord_not_caseBit t.b0), queryType_of_some hf htr (boolWord_not_caseBit t.b1),
    queryType_of_some hf htr (boolWord_not_caseBit t.b2), queryType_of_some hf htr (boolWord_caseBit t.b3),
    queryType_of_some hf htr (boolWord_ctIsValid t)⟩

end Sys2Proof.Machine

/-!
PROOFS. The family 41_crc32: the parameters (R140), the table form of the checksum step (R142), streaming and what a chunk's checksum covers (R143, R144), and
CRC.CALC (R145). A shift step is linear over exclusive or, which gives the table form, and loses no bit, which makes the checksum depend on every byte.
-/

namespace Sys2Proof.Machine

/-! ### The shift steps, bit by bit -/

/-- Each bit moves down by one, and the bit that falls out feeds the polynomial back. -/
theorem crcShift_getLsbD (acc : Word) (k : Nat) :
    (crcShift acc).getLsbD k = (acc.getLsbD (k + 1) ^^ (acc.getLsbD 0 && crcParams.polyReflected.getLsbD k)) := by
  unfold crcShift
  cases acc.getLsbD 0 <;> simp [Nat.add_comm]

theorem crcShift_xor (x y : Word) : crcShift (x ^^^ y) = crcShift x ^^^ crcShift y := by
  refine BitVec.eq_of_getLsbD_eq fun k _ => ?_
  simp only [BitVec.getLsbD_xor, crcShift_getLsbD, Bool.and_xor_distrib_right, Bool.xor_assoc, Bool.xor_left_comm]

/-- The polynomial has bit 31, which the shift leaves clear: it shows the bit that fell out. -/
theorem crcShift_getLsbD_31 (acc : Word) : (crcShift acc).getLsbD 31 = acc.getLsbD 0 := by
  have hpoly : crcParams.polyReflected.getLsbD 31 = true := by decide
  rw [crcShift_getLsbD, BitVec.getLsbD_of_ge acc 32 le_rfl, hpoly, Bool.and_true, Bool.false_xor]

/-- A shift step loses no bit: bit 0 shows in bit 31, and where it is clear the others are only moved. -/
theorem eq_zero_of_crcShift_eq_zero {acc : Word} (h : crcShift acc = 0#32) : acc = 0#32 := by
  have hlow : acc.getLsbD 0 = false := by rw [← crcShift_getLsbD_31, h, BitVec.getLsbD_zero]
  refine BitVec.eq_of_getLsbD_eq fun k _ => ?_
  cases k with
  | zero => simpa using hlow
  | succ k =>
    have hk := crcShift_getLsbD acc k
    rw [h, hlow] at hk
    simpa using hk.symm

theorem crcShift_injective : Function.Injective crcShift := by
  intro x y h
  have hxor : crcShift (x ^^^ y) = 0#32 := by rw [crcShift_xor, h, BitVec.xor_self]
  exact BitVec.xor_eq_zero_iff.mp (eq_zero_of_crcShift_eq_zero hxor)

theorem crcShifts_xor (n : Nat) (x y : Word) : crcShifts n (x ^^^ y) = crcShifts n x ^^^ crcShifts n y := by
  induction n generalizing x y with
  | zero => rfl
  | succ n ih => rw [crcShifts, crcShift_xor, ih, crcShifts, crcShifts]

theorem crcShifts_injective (n : Nat) : Function.Injective (crcShifts n) := by
  induction n with
  | zero => exact Function.injective_id
  | succ n ih => exact ih.comp crcShift_injective

/-- Where only clear bits fall out, nothing is fed back. -/
theorem crcShifts_of_low_clear {n : Nat} {acc : Word} (h : ∀ k < n, acc.getLsbD k = false) : crcShifts n acc = acc >>> n := by
  induction n generalizing acc with
  | zero => simp [crcShifts]
  | succ n ih =>
    have hshift : crcShift acc = acc >>> 1 := if_neg (ne_true_of_eq_false (h 0 n.succ_pos))
    have hlow : ∀ k < n, (acc >>> 1).getLsbD k = false := fun k hk => by
      rw [BitVec.getLsbD_ushiftRight, Nat.add_comm]
      exact h (k + 1) (Nat.succ_lt_succ hk)
    rw [crcShifts, hshift, ih hlow, ← BitVec.shiftRight_add, Nat.add_comm]

/-! ### The table form -/

theorem getLsbD_0xFF : ∀ k < 8, (0xFF#32).getLsbD k = true := by
  decide

/-- What is left of an accumulator without its low byte. -/
theorem xor_and_0xFF_low_clear (z : Word) : ∀ k < 8, (z ^^^ (z &&& 0xFF#32)).getLsbD k = false := by
  intro k hk
  rw [BitVec.getLsbD_xor, BitVec.getLsbD_and, getLsbD_0xFF k hk, Bool.and_true, Bool.xor_self]

theorem ushiftRight_eight_eq_zero {z : Word} (h : z.toNat < 256) : z >>> 8 = 0#32 :=
  BitVec.eq_of_toNat_eq (by rw [BitVec.toNat_ushiftRight, Nat.shiftRight_eq_div_pow]; exact Nat.div_eq_of_lt h)

theorem and_0xFF_toNat_lt (z : Word) : (z &&& 0xFF#32).toNat < 256 :=
  BitVec.toNat_and z 0xFF#32 ▸ Nat.lt_succ_of_le Nat.and_le_right

/-- The low byte alone decides what is fed back in eight shift steps; the bits above it are only moved. -/
theorem crcShifts_eight (z : Word) : crcShifts 8 z = crcShifts 8 (z &&& 0xFF#32) ^^^ z >>> 8 := calc
  crcShifts 8 z = crcShifts 8 ((z &&& 0xFF#32) ^^^ (z ^^^ (z &&& 0xFF#32))) := by
    rw [BitVec.xor_comm z, ← BitVec.xor_assoc, BitVec.xor_self, BitVec.zero_xor]
  _ = crcShifts 8 (z &&& 0xFF#32) ^^^ (z ^^^ (z &&& 0xFF#32)) >>> 8 := by
    rw [crcShifts_xor, crcShifts_of_low_clear (xor_and_0xFF_low_clear z)]
  _ = crcShifts 8 (z &&& 0xFF#32) ^^^ z >>> 8 := by
    rw [BitVec.ushiftRight_xor_distrib, ushiftRight_eight_eq_zero (and_0xFF_toNat_lt z), BitVec.xor_zero]

/-- The byte enters below bit 8. -/
theorem xor_setWidth_ushiftRight (acc : Word) (b : Byte) : (acc ^^^ b.setWidth 32) >>> 8 = acc >>> 8 := by
  have hbyte : (b.setWidth 32).toNat < 256 := by rw [BitVec.toNat_setWidth_of_le (by decide)]; exact b.isLt
  rw [BitVec.ushiftRight_xor_distrib, ushiftRight_eight_eq_zero hbyte, BitVec.xor_zero]

theorem crcTable_length : crcTable.length = 256 := by
  decide +kernel

/-- Every printed entry is what R142 says it is, by evaluation. -/
theorem crcTable_getElem? : ∀ k < 256, crcTable[k]? = some (crcShifts 8 (BitVec.ofNat 32 k)) := by
  decide +kernel

theorem crcTable_getD {z : Word} (h : z.toNat < 256) : crcTable.getD z.toNat 0#32 = crcShifts 8 z := by
  rw [List.getD_eq_getElem?_getD, crcTable_getElem? _ h, Option.getD_some, BitVec.ofNat_toNat, BitVec.setWidth_eq]

theorem crcStep_eq_crcStepTable (acc : Word) (b : Byte) : crcStep acc b = crcStepTable acc b := by
  rw [crcStep, crcShifts_eight, xor_setWidth_ushiftRight, crcStepTable, crcTable_getD (and_0xFF_toNat_lt _)]

/-- Settles O30: eight shift steps are the table's entry for the low byte, and a shift of the rest. -/
theorem checksumTableFormAgrees : Obligations.ChecksumTableFormAgrees :=
  ⟨crcTable_length, crcTable_getElem?, crcStep_eq_crcStepTable⟩

/-! ### Every byte counts -/

theorem crcStep_injective_left (b : Byte) : Function.Injective (crcStep · b) :=
  fun _ _ h => (BitVec.xor_left_inj _).mp (crcShifts_injective 8 h)

theorem crcStep_injective_right (acc : Word) : Function.Injective (crcStep acc) := by
  intro b b' h
  have hbyte : b.setWidth 32 = b'.setWidth 32 := (BitVec.xor_right_inj acc).mp (crcShifts_injective 8 h)
  simpa using congrArg (BitVec.setWidth 8) hbyte

theorem crcFold_injective (M : List Byte) : Function.Injective (crcFold · M) := by
  induction M with
  | nil => exact Function.injective_id
  | cons b M ih => exact ih.comp (crcStep_injective_left b)

theorem crcFold_append (acc : Word) (X Y : List Byte) : crcFold acc (X ++ Y) = crcFold (crcFold acc X) Y :=
  List.foldl_append

theorem crc32_append_cons (X Y : List Byte) (b : Byte) :
    crc32 (X ++ b :: Y) = crcFold (crcStep (crcFold crcParams.init X) b) Y ^^^ crcParams.xorOut := by
  rw [crc32, crcFold_append]
  rfl

/-- Settles O32: equal checksums come from equal accumulators behind the byte, and those from equal bytes. -/
theorem checksumDependsOnEveryByte : Obligations.ChecksumDependsOnEveryByte := by
  intro X Y b b' hne h
  rw [crc32_append_cons, crc32_append_cons, BitVec.xor_left_inj] at h
  exact hne (crcStep_injective_right _ (crcFold_injective Y h))

/-! ### The parameters, streaming, and the command -/

/-- Settles O29: the bits of the polynomial and the check value are evaluated. -/
theorem checksumParametersAndCheckValue : Obligations.ChecksumParametersAndCheckValue :=
  ⟨by decide, rfl, rfl, by decide +kernel⟩

theorem crc32_nil : crc32 [] = 0#32 := rfl

theorem chunkCrc_eq_crcFold (c : Chunk) :
    chunkCrc c = crcFold (crcFold 0xFFFFFFFF#32 (quadBytes c.type)) c.data ^^^ 0xFFFFFFFF#32 := by
  rw [← crcFold_append]
  rfl

/-- Settles O31: the fold is a left fold, and the two constants cancel where nothing is folded. -/
theorem checksumStreams : Obligations.ChecksumStreams :=
  ⟨crc32_nil, crcFold_append, fun c => ⟨rfl, chunkCrc_eq_crcFold c⟩⟩

theorem exec_crcCalc {s : State} (hf : s.status.f = false) :
    exec .crcCalc s = .next { s with res := crc32 (inputBytes s), status := ⟨.ok, false⟩ } :=
  (accept_of_running hf _).trans (respond_of_running hf _)

theorem inputBytes_of_empty {s : State} (h : s.ibuf.length = 0) : inputBytes s = [] :=
  List.eq_nil_of_length_eq_zero ((inputBytes_length s).trans h)

/-- Settles O49: the command responds with the checksum of the input bytes, of which an empty buffer has none. -/
theorem crcCalcChecksumsTheInputBuffer : Obligations.CrcCalcChecksumsTheInputBuffer :=
  ⟨rfl, fun _ => exec_crcCalc, fun _ h => (congrArg crc32 (inputBytes_of_empty h)).trans crc32_nil⟩

end Sys2Proof.Machine

/-!
PROOFS. The family 42_chunk_record: a complete record and what the parser answers for it (R164, R165, R167), which buffers are truncated (R168), serializing
(R161) and the round trip (R170), damaged records (R171), the data string (R176), and the commands of the record unit (R162 to R177).
-/

namespace Sys2Proof.Machine

/-! ### A complete record -/

section
variable {len t crc : Quad} {d tail : List Byte}

theorem quadAt_record_len : quadAt (quadBytes len ++ quadBytes t ++ d ++ quadBytes crc ++ tail) 0 = some len := by
  simpa using quadAt_append (X := []) (q := len) (Y := quadBytes t ++ (d ++ (quadBytes crc ++ tail))) rfl

theorem quadAt_record_type : quadAt (quadBytes len ++ quadBytes t ++ d ++ quadBytes crc ++ tail) 4 = some t := by
  simpa using quadAt_append (X := quadBytes len) (q := t) (Y := d ++ (quadBytes crc ++ tail)) rfl

theorem slice_record_data : slice (quadBytes len ++ quadBytes t ++ d ++ quadBytes crc ++ tail) 8 d.length = d := by
  simpa using slice_append (X := quadBytes len ++ quadBytes t) (D := d) (Y := quadBytes crc ++ tail) rfl rfl

theorem quadAt_record_crc : quadAt (quadBytes len ++ quadBytes t ++ d ++ quadBytes crc ++ tail) (8 + d.length) = some crc :=
  quadAt_append (by simp; omega)

theorem record_length : (quadBytes len ++ quadBytes t ++ d ++ quadBytes crc ++ tail).length = 12 + d.length + tail.length := by
  simp
  omega

/-- The parser reads the four fields where they stand, and nothing of the tail (42_chunk_record R164, R167). -/
theorem chunkParse_record (h : d.length = (be32 len).toNat) :
    chunkParse (quadBytes len ++ quadBytes t ++ d ++ quadBytes crc ++ tail) =
      if ChunkType.alphabetic t = false then .error .invalidChunkType
      else if crc32 (quadBytes t ++ d) ≠ be32 crc then .error .invalidCrc
      else .ok (⟨t, d⟩, 12 + d.length) := by
  have hcomplete : ¬ (quadBytes len ++ quadBytes t ++ d ++ quadBytes crc ++ tail).length < 12 + d.length := by
    rw [record_length]
    omega
  unfold chunkParse
  simp only [quadAt_record_len, ← h, if_neg hcomplete, quadAt_record_type, quadAt_record_crc, slice_record_data]
  cases ChunkType.alphabetic t <;> rfl

theorem chunkParse_record_of_crc_eq (h : d.length = (be32 len).toNat) (ht : ChunkType.alphabetic t = true)
    (hcrc : crc32 (quadBytes t ++ d) = be32 crc) :
    chunkParse (quadBytes len ++ quadBytes t ++ d ++ quadBytes crc ++ tail) = .ok (⟨t, d⟩, 12 + d.length) := by
  simp only [chunkParse_record h, ht, hcrc, Bool.true_eq_false, if_false, ne_eq, not_true]

theorem chunkParse_record_of_crc_ne (h : d.length = (be32 len).toNat) (ht : ChunkType.alphabetic t = true)
    (hcrc : crc32 (quadBytes t ++ d) ≠ be32 crc) :
    chunkParse (quadBytes len ++ quadBytes t ++ d ++ quadBytes crc ++ tail) = .error .invalidCrc := by
  simp only [chunkParse_record h, ht, Bool.true_eq_false, if_false, if_pos hcrc]

theorem chunkParse_record_ne_truncated (h : d.length = (be32 len).toNat) :
    chunkParse (quadBytes len ++ quadBytes t ++ d ++ quadBytes crc ++ tail) ≠ .error .truncatedInput := by
  rw [chunkParse_record h]
  split_ifs <;> nofun

end

/-- Settles O34: the outcome of a complete record is that of its fields. -/
theorem completeRecordOutcome : Obligations.CompleteRecordOutcome :=
  fun _ _ _ _ _ => chunkParse_record

/-! ### Truncated records -/

/-- A buffer of at least four bytes begins with the bytes of a quad. -/
theorem exists_quadBytes_append {B : List Byte} (h : 4 ≤ B.length) : ∃ q rest, B = quadBytes q ++ rest := by
  obtain ⟨q, hq⟩ := exists_quadBytes (B := B.take 4) (by simpa using h)
  exact ⟨q, B.drop 4, by rw [← hq, List.take_append_drop]⟩

/-- `B` holds fewer than 12 bytes, or fewer than its length field announces (42_chunk_record R168). -/
def IsTruncated (B : List Byte) : Prop :=
  B.length < 12 ∨ ∃ (len : Quad) (rest : List Byte), B = quadBytes len ++ rest ∧ B.length < 12 + (be32 len).toNat

/-- A buffer that is not truncated is a complete record and a tail. -/
theorem exists_record_of_not_isTruncated {B : List Byte} (h : ¬ IsTruncated B) : ∃ (len t crc : Quad) (d tail : List Byte),
    B = quadBytes len ++ quadBytes t ++ d ++ quadBytes crc ++ tail ∧ d.length = (be32 len).toNat := by
  obtain ⟨h12, hlen⟩ := not_or.mp h
  obtain ⟨len, R, rfl⟩ := exists_quadBytes_append (B := B) (by omega)
  have hL : ¬ (quadBytes len ++ R).length < 12 + (be32 len).toNat := fun hlt => hlen ⟨len, R, rfl, hlt⟩
  simp only [List.length_append, quadBytes_length] at h12 hL
  obtain ⟨t, R, rfl⟩ := exists_quadBytes_append (B := R) (by omega)
  simp only [List.length_append, quadBytes_length] at hL
  obtain ⟨crc, tail, hR⟩ := exists_quadBytes_append (B := R.drop (be32 len).toNat) (by rw [List.length_drop]; omega)
  refine ⟨len, t, crc, R.take (be32 len).toNat, tail, ?_, by rw [List.length_take]; omega⟩
  simp only [List.append_assoc, ← hR, List.take_append_drop]

theorem chunkParse_of_lt_four {B : List Byte} (h : B.length < 4) : chunkParse B = .error .truncatedInput := by
  simp [chunkParse, quadAt_eq_none.mpr h]

theorem chunkParse_of_lt_announced {len : Quad} {rest : List Byte} (h : (quadBytes len ++ rest).length < 12 + (be32 len).toNat) :
    chunkParse (quadBytes len ++ rest) = .error .truncatedInput := by
  have hlen : quadAt (quadBytes len ++ rest) 0 = some len := quadAt_append (X := []) rfl
  simp only [chunkParse, hlen, if_pos h]

/-- Below 12 bytes a record is truncated with any length field, or has none. -/
theorem chunkParse_of_lt_twelve {B : List Byte} (h : B.length < 12) : chunkParse B = .error .truncatedInput := by
  rcases Nat.lt_or_ge B.length 4 with h4 | h4
  · exact chunkParse_of_lt_four h4
  · obtain ⟨len, rest, rfl⟩ := exists_quadBytes_append h4
    exact chunkParse_of_lt_announced (Nat.lt_add_right _ h)

theorem chunkParse_eq_truncated_iff (B : List Byte) : chunkParse B = .error .truncatedInput ↔ IsTruncated B := by
  constructor
  · intro h
    by_contra hlong
    obtain ⟨len, t, crc, d, tail, rfl, hd⟩ := exists_record_of_not_isTruncated hlong
    exact chunkParse_record_ne_truncated hd h
  · rintro (h12 | ⟨len, rest, rfl, hlt⟩)
    · exact chunkParse_of_lt_twelve h12
    · exact chunkParse_of_lt_announced hlt

/-- Settles O33: a buffer with all its bytes is a complete record, which has another outcome. -/
theorem truncatedExactlyWhenTooShort : Obligations.TruncatedExactlyWhenTooShort :=
  chunkParse_eq_truncated_iff

/-! ### Serializing, and the round trip -/

theorem chunkAsBytes_length (c : Chunk) : (chunkAsBytes c).length = 12 + c.data.length := by
  simp [chunkAsBytes]
  omega

/-- Settles O35: the layout is the definition of `chunkAsBytes`, and three of its parts have four bytes. -/
theorem serializedRecordLayout : Obligations.SerializedRecordLayout :=
  fun c => ⟨rfl, chunkAsBytes_length c⟩

theorem ofNat_toNat_of_le_maxPayload {n : Nat} (h : n ≤ maxPayload) : (BitVec.ofNat 32 n).toNat = n :=
  (BitVec.toNat_ofNat n 32).trans (Nat.mod_eq_of_lt (Nat.lt_succ_of_le h))

/-- The length field of a chunk value announces its payload: the length does not wrap (10_state R22). -/
theorem length_eq_be32_of_ok {c : Chunk} (h : c.ok = true) : c.data.length = (be32 (toBe32 (BitVec.ofNat 32 c.data.length))).toNat := by
  obtain ⟨-, hlen⟩ := chunk_ok_iff.mp h
  rw [be32_toBe32, ofNat_toNat_of_le_maxPayload hlen]

theorem chunkParse_chunkAsBytes {c : Chunk} (h : c.ok = true) (tail : List Byte) :
    chunkParse (chunkAsBytes c ++ tail) = .ok (c, 12 + c.data.length) := by
  obtain ⟨ht, -⟩ := chunk_ok_iff.mp h
  have hcrc : crc32 (quadBytes c.type ++ c.data) = be32 (toBe32 (chunkCrc c)) := (be32_toBe32 (chunkCrc c)).symm
  exact chunkParse_record_of_crc_eq (length_eq_be32_of_ok h) ht hcrc

/-- Fields that agree with a chunk are the ones that serializing computes. -/
theorem chunkAsBytes_of_fields {c : Chunk} {len crc : Quad} (hlen : c.data.length = (be32 len).toNat)
    (hcrc : crc32 (quadBytes c.type ++ c.data) = be32 crc) :
    chunkAsBytes c = quadBytes len ++ quadBytes c.type ++ c.data ++ quadBytes crc := by
  rw [chunkAsBytes, chunkLength, hlen, BitVec.ofNat_toNat, BitVec.setWidth_eq, toBe32_be32, chunkCrc, hcrc, toBe32_be32]

/-- What is parsed serializes to the bytes that were consumed. -/
theorem chunkAsBytes_of_chunkParse {B : List Byte} {c : Chunk} {k : Nat} (h : chunkParse B = .ok (c, k)) :
    chunkAsBytes c = B.take k ∧ k = 12 + c.data.length := by
  obtain ⟨len, crc, tail, hB, hlen, -, hcrc, hk⟩ := chunkParse_eq_ok h
  have hsplit : B = chunkAsBytes c ++ tail := by rw [hB, chunkAsBytes_of_fields hlen hcrc]
  exact ⟨by rw [hsplit, List.take_left' ((chunkAsBytes_length c).trans hk.symm)], hk⟩

/-- Settles O36: a serialized chunk value is a complete record, and a parsed record has the fields that serializing computes. -/
theorem recordRoundTrip : Obligations.RecordRoundTrip := by
  refine ⟨fun t d tail ht hd => chunkParse_chunkAsBytes (c := chunkNew t d) (chunk_ok_iff.mpr ⟨ht, hd⟩) tail, fun B c k h => ?_⟩
  obtain ⟨hbytes, hk⟩ := chunkAsBytes_of_chunkParse h
  obtain ⟨-, hle⟩ := chunkParse_consumed h
  exact ⟨hbytes, hk, hle, chunkParse_ok_chunk (r := (c, k)) h⟩

/-! ### Damaged records -/

/-- Flipping a bit of a word changes it. -/
theorem xor_twoPow_ne (v : Word) {k : Nat} (h : k < 32) : v ^^^ BitVec.twoPow 32 k ≠ v := by
  intro he
  simpa [h] using congrArg (·.getLsbD k) he

/-- A cut of a record keeps the length field, or fewer than 12 bytes. -/
theorem isTruncated_take_chunkAsBytes {c : Chunk} {n : Nat} (hc : c.ok = true) (hn : n < 12 + c.data.length) :
    IsTruncated ((chunkAsBytes c).take n) := by
  have hlt : ((chunkAsBytes c).take n).length ≤ n := List.length_take_le n _
  rcases Nat.lt_or_ge n 12 with h12 | h12
  · exact .inl (Nat.lt_of_le_of_lt hlt h12)
  · have hcut : (chunkAsBytes c).take n =
        quadBytes (toBe32 (BitVec.ofNat 32 c.data.length)) ++
          (quadBytes c.type ++ (c.data ++ quadBytes (toBe32 (chunkCrc c)))).take (n - 4) := by
      rw [chunkAsBytes, List.append_assoc, List.append_assoc, List.take_append,
        List.take_of_length_le (Nat.le_trans (by decide : 4 ≤ 12) h12)]
      rfl
    refine .inr ⟨_, _, hcut, ?_⟩
    rw [← length_eq_be32_of_ok hc]
    exact Nat.lt_of_le_of_lt hlt hn

/-- Settles O37: the damaged checksum differs from the right one, and a cut is shorter than its length field announces. -/
theorem damagedRecordsAreRejected : Obligations.DamagedRecordsAreRejected := by
  refine ⟨fun c k tail hc hk => ?_, fun c n hc hn => ?_⟩
  · obtain ⟨ht, -⟩ := chunk_ok_iff.mp hc
    have hcrc : chunkCrc c ≠ be32 (toBe32 (chunkCrc c ^^^ BitVec.twoPow 32 k)) := by
      rw [be32_toBe32]
      exact (xor_twoPow_ne (chunkCrc c) hk).symm
    exact chunkParse_record_of_crc_ne (length_eq_be32_of_ok hc) ht hcrc
  · exact (chunkParse_eq_truncated_iff _).mpr (isTruncated_take_chunkAsBytes hc hn)

/-! ### The data string -/

/-- A byte below 0x80 is its own character (42_chunk_record R176). -/
theorem utf8_of_lt {b : Byte} (h : b.toNat < 0x80) : utf8 b.toNat = [b] := by
  simp [utf8, h]

/-- A byte from 0x80 up becomes a lead and a trail byte, which share its bits. -/
theorem utf8_of_ge {b : Byte} (h : 0x80 ≤ b.toNat) :
    utf8 b.toNat = [BitVec.ofNat 8 (0xC0 + b.toNat / 64), BitVec.ofNat 8 (0x80 + b.toNat % 64)] := by
  rw [utf8, if_neg (Nat.not_lt.mpr h), Nat.shiftRight_eq_div_pow, Nat.and_two_pow_sub_one_eq_mod b.toNat 6]

/-- A lead byte is no one-byte character. -/
theorem utf8_lead_ge {b : Byte} : 0x80 ≤ (BitVec.ofNat 8 (0xC0 + b.toNat / 64)).toNat := by
  have := b.isLt
  rw [BitVec.toNat_ofNat]
  omega

/-- The lead byte has the upper two bits and the trail byte the lower six. -/
theorem eq_of_utf8_lead_eq_of_trail_eq {b b' : Byte} (hlead : BitVec.ofNat 8 (0xC0 + b.toNat / 64) = BitVec.ofNat 8 (0xC0 + b'.toNat / 64))
    (htrail : BitVec.ofNat 8 (0x80 + b.toNat % 64) = BitVec.ofNat 8 (0x80 + b'.toNat % 64)) : b = b' := by
  have := b.isLt
  have := b'.isLt
  rw [BitVec.toNat_eq, BitVec.toNat_ofNat, BitVec.toNat_ofNat] at hlead htrail
  rw [BitVec.toNat_eq]
  omega

theorem utf8_length (b : Byte) : (utf8 b.toNat).length = 1 + if 0x80 ≤ b.toNat then 1 else 0 := by
  split
  · next h => rw [utf8_of_ge h]; rfl
  · next h => rw [utf8_of_lt (Nat.lt_of_not_le h)]; rfl

theorem utf8_ne_nil (b : Byte) : utf8 b.toNat ≠ [] :=
  List.ne_nil_of_length_pos (by rw [utf8_length]; omega)

/-- The first byte tells a one-byte character from a two-byte one. -/
theorem utf8_append_ne {b b' : Byte} (hb : b.toNat < 0x80) (hb' : 0x80 ≤ b'.toNat) (X Y : List Byte) :
    utf8 b.toNat ++ X ≠ utf8 b'.toNat ++ Y := by
  rw [utf8_of_lt hb, utf8_of_ge hb']
  intro h
  obtain ⟨rfl, -⟩ := List.cons.inj h
  exact absurd utf8_lead_ge (Nat.not_le.mpr hb)

/-- The first character of a string can be read off its bytes: no character is the beginning of another. -/
theorem utf8_append_inj {b b' : Byte} {X Y : List Byte} (h : utf8 b.toNat ++ X = utf8 b'.toNat ++ Y) : b = b' ∧ X = Y := by
  rcases Nat.lt_or_ge b.toNat 0x80 with hb | hb <;> rcases Nat.lt_or_ge b'.toNat 0x80 with hb' | hb'
  · simpa [utf8_of_lt hb, utf8_of_lt hb'] using h
  · exact absurd h (utf8_append_ne hb hb' X Y)
  · exact absurd h.symm (utf8_append_ne hb' hb Y X)
  · rw [utf8_of_ge hb, utf8_of_ge hb'] at h
    obtain ⟨hlead, hrest⟩ := List.cons.inj h
    obtain ⟨htrail, hXY⟩ := List.cons.inj hrest
    exact ⟨eq_of_utf8_lead_eq_of_trail_eq hlead htrail, hXY⟩

theorem dataStringBytes_cons (b : Byte) (d : List Byte) : dataStringBytes (b :: d) = utf8 b.toNat ++ dataStringBytes d := rfl

theorem dataStringBytes_length (d : List Byte) :
    (dataStringBytes d).length = d.length + (d.filter fun b => decide (0x80 ≤ b.toNat)).length := by
  induction d with
  | nil => rfl
  | cons b d ih =>
    rw [dataStringBytes_cons, List.length_append, utf8_length, ih, List.filter_cons]
    by_cases h : 0x80 ≤ b.toNat <;> simp [h] <;> omega

theorem dataStringBytes_cons_ne_nil (b : Byte) (d : List Byte) : dataStringBytes (b :: d) ≠ [] :=
  List.append_ne_nil_of_left_ne_nil (utf8_ne_nil b) _

theorem dataStringBytes_inj {d d' : List Byte} (h : dataStringBytes d = dataStringBytes d') : d = d' := by
  induction d generalizing d' with
  | nil =>
    cases d' with
    | nil => rfl
    | cons b' d' => exact absurd h.symm (dataStringBytes_cons_ne_nil b' d')
  | cons b d ih =>
    cases d' with
    | nil => exact absurd h (dataStringBytes_cons_ne_nil b d)
    | cons b' d' =>
      obtain ⟨rfl, hrest⟩ := utf8_append_inj h
      rw [ih hrest]

theorem dataAsString_injective : Function.Injective dataAsString :=
  List.map_injective_iff.mpr fun _ _ => BitVec.eq_of_toNat_eq

/-- Settles O38: a character has one or two bytes by the range of its byte, and characters are read off the bytes one by one. -/
theorem dataStringIsOneCharacterPerByte : Obligations.DataStringIsOneCharacterPerByte :=
  ⟨fun d => ⟨rfl, dataStringBytes_length d⟩, fun _ _ h => dataAsString_injective h, fun _ _ => dataStringBytes_inj⟩

/-! ### Building and parsing a chunk -/

/-- With a type in TR, CH.NEW comes down to the check of the payload's length (42_chunk_record R163). -/
theorem exec_chNew {s : State} {t : ChunkType} (hf : s.status.f = false) (htr : s.tr = some t) :
    exec .chNew s = if s.ibuf.length > maxPayload then takeFault s .lengthOverflow
      else respond (setWc s (some (chunkNew t (inputBytes s)))) 0#32 :=
  (accept_of_running hf _).trans (withType_of_some htr _)

/-- Settles O50: TR is read first, then the length decides. -/
theorem chNewBuildsAChunk : Obligations.ChNewBuildsAChunk := by
  refine ⟨rfl, fun s t hf htr hlen => ?_, fun s t hf htr hlen => ?_, fun s => exec_of_tr_empty rfl⟩
  · rw [exec_chNew hf htr, if_neg (Nat.not_lt.mpr hlen)]
    exact respond_of_running (s := setWc s (some (chunkNew t (inputBytes s)))) hf _
  · rw [exec_chNew hf htr, if_pos hlen]
    rfl

theorem exec_chParse_ok {s : State} {c : Chunk} {k : Nat} (hf : s.status.f = false) (h : chunkParse (inputBytes s) = .ok (c, k)) :
    exec .chParse s = .next { s with wc := some c, res := 0#32, status := ⟨.ok, false⟩ } := by
  rw [exec, execChParse, accept_of_running hf, h]
  exact respond_of_running (s := setWc s (some c)) hf _

theorem exec_chParse_error {s : State} {e : ErrorKind} (hf : s.status.f = false) (h : chunkParse (inputBytes s) = .error e) :
    exec .chParse s = .next { s with res := 0#32, status := ⟨.error e, false⟩ } := by
  rw [exec, execChParse, accept_of_running hf, h]
  exact raiseError_of_running hf e

/-- Settles O51: the command ends as the record parser does on the input bytes. -/
theorem chParseLoadsTheFirstRecord : Obligations.ChParseLoadsTheFirstRecord :=
  ⟨rfl, fun _ _ _ => exec_chParse_ok, fun _ _ hf h => ⟨chunkParse_eq_error h, exec_chParse_error hf h⟩⟩

/-! ### The subject of an accessor -/

/-- The word of a format-S command: `arg` above the opcode and the subject bit (30_encoding R88). -/
theorem packFields_fieldsS {op : BitVec 8} {w w' : BitVec 16} (hw : 0#7 ++ (BitVec.ofBool true ++ op) = w)
    (hw' : 0#7 ++ (BitVec.ofBool false ++ op) = w') (sel : Subject) (arg : Word) :
    packFields (fieldsS op sel arg) = arg ++ (if sel = .entry then w else w') := by
  subst hw hw'
  cases sel <;> rfl

/-- The fault of an absent subject (30_encoding R89). -/
theorem subject_of_absent {sel : Subject} {arg : Word} {s : State} (h : ¬ ∃ c, isSubject sel arg s c) :
    subject sel arg s = .error (if sel = .wc then .noOperand else .indexOutOfRange) := by
  have hnone : subjectOf sel arg s = none := by
    simpa [isSubject_iff, Option.eq_none_iff_forall_ne_some] using h
  cases sel with
  | wc => exact subject_eq_error.mpr (.inl ⟨rfl, hnone, rfl⟩)
  | entry => exact subject_eq_error.mpr (.inr ⟨rfl, List.getElem?_eq_none_iff.mp hnone, rfl⟩)

/-- Every format-S command without its subject ends in that fault. -/
theorem exec_of_absent_subject {i : Instr} {sel : Subject} {arg : Word} {s : State}
    (hi : i ∈ [Instr.chLen sel arg, .chType sel arg, .chData sel arg, .chCrc sel arg, .chDatastr sel arg, .chBytes sel arg])
    (hf : s.status.f = false) (h : ¬ ∃ c, isSubject sel arg s c) :
    exec i s = .next { s with status := ⟨.fault (if sel = .wc then .noOperand else .indexOutOfRange), true⟩ } := by
  obtain ⟨k, hk⟩ := exec_of_formatS s hi
  rw [hk, accept_of_running hf, withSubject_of_error (subject_of_absent h)]
  rfl

theorem accept_withSubject {s : State} {sel : Subject} {arg : Word} {c : Chunk} (hf : s.status.f = false) (hc : isSubject sel arg s c)
    (k : Chunk → Result) : accept s (withSubject sel arg s k) = k c :=
  (accept_of_running hf _).trans (withSubject_of_some (isSubject_iff.mp hc) k)

/-- In a state that meets the invariant, the payload of a subject is not too long. -/
theorem data_length_le_of_isSubject {s : State} {sel : Subject} {arg : Word} {c : Chunk} (hi : s.Inv) (hc : isSubject sel arg s c) :
    c.data.length ≤ maxPayload :=
  (chunk_ok_iff.mp (ok_of_subject hi (subject_eq_ok_iff.mpr (isSubject_iff.mp hc)))).2

/-- Settles O52: each command responds with a value read off its subject; a payload length within 2^32 - 1 is exact in RES. -/
theorem scalarAccessorsReadTheSubject : Obligations.ScalarAccessorsReadTheSubject := by
  refine ⟨fun sel arg => ?_, fun s sel arg hf h i hi => ?_, fun s sel arg c hf hc => ?_⟩
  · exact ⟨packFields_fieldsS rfl rfl sel arg, packFields_fieldsS rfl rfl sel arg, packFields_fieldsS rfl rfl sel arg⟩
  · exact exec_of_absent_subject (List.subset_def.mp (by simp) hi) hf h
  · exact ⟨(accept_withSubject hf hc _).trans (respond_of_running hf _),
      fun hi => ofNat_toNat_of_le_maxPayload (data_length_le_of_isSubject hi hc),
      (accept_withSubject hf hc _).trans (respond_of_running (s := setTr s (some c.type)) hf _),
      (accept_withSubject hf hc _).trans (respond_of_running hf _)⟩

/-! ### The accessors that fill the output buffer -/

theorem emit_of_fits {s : State} {B : List Byte} (hf : s.status.f = false) (v : Word) (hfit : fits s.params.obufCap B.length = true) :
    emit s B v = .next { s with obuf := Memory.ofBytes B, res := v, status := ⟨.ok, false⟩ } :=
  (if_pos hfit).trans (respond_of_running (s := setObuf s (Memory.ofBytes B)) hf v)

theorem emit_of_not_fits {s : State} {B : List Byte} (v : Word) (hfit : fits s.params.obufCap B.length = false) :
    emit s B v = .next { s with status := ⟨.fault .capacityExceeded, true⟩ } :=
  if_neg (ne_true_of_eq_false hfit)

/-- With a subject, each of the three commands is the whole-buffer write of its bytes (42_chunk_record R174, R176, R177). -/
theorem exec_bufferAccessor {s : State} {sel : Subject} {arg : Word} {c : Chunk} {p : Instr × List Byte} (hf : s.status.f = false)
    (hc : isSubject sel arg s c)
    (hp : p ∈ [(Instr.chData sel arg, c.data), (Instr.chDatastr sel arg, dataStringBytes c.data), (Instr.chBytes sel arg, chunkAsBytes c)]) :
    exec p.1 s = emit s p.2 0#32 := by
  simp only [List.mem_cons, List.not_mem_nil, or_false] at hp
  rcases hp with rfl | rfl | rfl <;> exact accept_withSubject hf hc _

/-- Settles O53: the whole-buffer write succeeds exactly where the bytes fit. -/
theorem bufferAccessorsWriteTheSubject : Obligations.BufferAccessorsWriteTheSubject := by
  refine ⟨fun sel arg => ?_, fun s sel arg hf h i hi => ?_, fun s sel arg c hf hc p hp => ⟨fun hfit => ?_, fun hfit => ?_⟩⟩
  · exact ⟨packFields_fieldsS rfl rfl sel arg, packFields_fieldsS rfl rfl sel arg, packFields_fieldsS rfl rfl sel arg⟩
  · exact exec_of_absent_subject (List.subset_def.mp (by simp) hi) hf h
  · exact ⟨_, (exec_bufferAccessor hf hc hp).trans (emit_of_fits hf _ hfit), rfl, bytes_ofBytes _, length_ofBytes _, read_ofBytes _⟩
  · exact (exec_bufferAccessor hf hc hp).trans (emit_of_not_fits _ hfit)

end Sys2Proof.Machine

/-!
PROOFS. The family 43_container: the stream parser and serializer (R201 to R208), the search by type (R214), and the commands of the container sequencer
(R202, R209 to R219).
-/

namespace Sys2Proof.Machine

/-! ### The signature -/

/-- The signature test asks whether the buffer begins with the eight bytes; a shorter buffer does not (43_container R204). -/
theorem signatureTest_iff (B : List Byte) : (B.length < 8 ∨ slice B 0 8 ≠ sig) ↔ ¬ ∃ rest, B = sig ++ rest := by
  rw [← not_iff_not, not_not, not_or, not_lt, not_not]
  constructor
  · rintro ⟨-, h⟩
    exact ⟨B.drop 8, h ▸ (List.take_append_drop 8 B).symm⟩
  · rintro ⟨rest, rfl⟩
    exact ⟨by simp [sig], rfl⟩

theorem containerParse_of_no_signature {B : List Byte} (h : ¬ ∃ rest, B = sig ++ rest) : containerParse B = .error .invalidSignature :=
  if_pos ((signatureTest_iff B).mpr h)

/-- After the signature the stream is its records, and their number of bytes is fuel enough (log 12). -/
theorem containerParse_sig_append (R : List Byte) : containerParse (sig ++ R) = parseRecords R.length R := by
  have hsig : ¬ ((sig ++ R).length < 8 ∨ slice (sig ++ R) 0 8 ≠ sig) := fun h => (signatureTest_iff _).mp h ⟨R, rfl⟩
  have hfuel : R.length ≤ (sig ++ R).length := by simp
  exact (if_neg hsig).trans (parseRecords_fuel hfuel (Nat.le_refl _))

/-- Settles O39: behind the signature only the record parser's errors can occur. -/
theorem signatureIsCheckedFirst : Obligations.SignatureIsCheckedFirst := by
  refine fun B => ⟨?_, containerParse_of_no_signature⟩
  rintro h ⟨R, rfl⟩
  rcases parseRecords_eq_error ((containerParse_sig_append R).symm.trans h) with he | he | he <;> cases he

/-! ### The records of a stream -/

/-- A record that parses is the first chunk of the list. -/
theorem parseRecords_of_ok {fuel : Nat} {B : List Byte} {r : Chunk × Nat} (h : chunkParse B = .ok r) :
    parseRecords (fuel + 1) B = (parseRecords fuel (B.drop r.2)).map (r.1 :: ·) := by
  have hB : B ≠ [] := by
    rintro rfl
    obtain ⟨hlow, hhigh⟩ := chunkParse_consumed h
    exact absurd (hlow.trans hhigh) (by decide)
  rw [parseRecords_succ hB, h]
  dsimp only
  cases parseRecords fuel (B.drop r.2) <;> rfl

/-- A record that does not parse ends the loop with its error (43_container R205). -/
theorem parseRecords_of_error {B : List Byte} {e : ErrorKind} (hB : B ≠ []) (h : chunkParse B = .error e) :
    parseRecords B.length B = .error e := by
  obtain ⟨n, hn⟩ := Nat.exists_eq_succ_of_ne_zero (mt List.length_eq_zero_iff.mp hB)
  rw [hn, parseRecords_succ hB, h]

/-- The list of a non-empty string of records is its first record's chunk and the list of the rest. -/
theorem parseRecords_eq_ok {fuel : Nat} {B : List Byte} {list : List Chunk} (hB : B ≠ []) (h : parseRecords (fuel + 1) B = .ok list) :
    ∃ r rest, chunkParse B = .ok r ∧ parseRecords fuel (B.drop r.2) = .ok rest ∧ list = r.1 :: rest := by
  cases hr : chunkParse B with
  | error e =>
    rw [parseRecords_succ hB, hr] at h
    cases h
  | ok r =>
    rw [parseRecords_of_ok hr] at h
    cases hrest : parseRecords fuel (B.drop r.2) with
    | error e => rw [hrest] at h; cases h
    | ok rest => rw [hrest] at h; cases h; exact ⟨r, rest, rfl, hrest, rfl⟩

/-- Serializing the chunks that the loop read gives back the bytes. -/
theorem flatMap_chunkAsBytes_of_parseRecords {fuel : Nat} {B : List Byte} {list : List Chunk} (hfuel : B.length ≤ fuel)
    (h : parseRecords fuel B = .ok list) : list.flatMap chunkAsBytes = B := by
  induction fuel generalizing B list with
  | zero =>
    obtain rfl : B = [] := List.length_eq_zero_iff.mp (Nat.le_zero.mp hfuel)
    cases h
    rfl
  | succ fuel ih =>
    by_cases hB : B = []
    · subst hB
      cases h
      rfl
    · obtain ⟨⟨c, k⟩, rest, hr, hrest, rfl⟩ := parseRecords_eq_ok hB h
      obtain ⟨hlow, -⟩ := chunkParse_consumed hr
      obtain ⟨hbytes, -⟩ := chunkAsBytes_of_chunkParse hr
      have htail : rest.flatMap chunkAsBytes = B.drop k := ih (by rw [List.length_drop]; omega) hrest
      rw [List.flatMap_cons, hbytes, htail, List.take_append_drop]

/-- The loop on a serialized chunk and what follows it. -/
theorem parseRecords_chunkAsBytes_append {c : Chunk} (hc : c.ok = true) (R : List Byte) :
    parseRecords (chunkAsBytes c ++ R).length (chunkAsBytes c ++ R) = (parseRecords R.length R).map (c :: ·) := by
  have hlen : (chunkAsBytes c ++ R).length = 11 + c.data.length + R.length + 1 := by
    rw [List.length_append, chunkAsBytes_length]
    omega
  have hdrop : (chunkAsBytes c ++ R).drop (12 + c.data.length) = R := List.drop_left' (chunkAsBytes_length c)
  have hfuel : R.length ≤ 11 + c.data.length + R.length := Nat.le_add_left _ _
  rw [hlen, parseRecords_of_ok (chunkParse_chunkAsBytes hc R), hdrop, parseRecords_fuel hfuel (Nat.le_refl _)]

/-- The stream parser reads back the serialized chunks one by one, and goes on with what follows them. -/
theorem containerParse_containerAsBytes_append {list : List Chunk} (hlist : ∀ c ∈ list, c.ok = true) (R : List Byte) :
    containerParse (containerAsBytes list ++ R) = (parseRecords R.length R).map (list ++ ·) := by
  rw [containerAsBytes, List.append_assoc, containerParse_sig_append]
  induction list with
  | nil =>
    rw [List.flatMap_nil, List.nil_append]
    cases parseRecords R.length R <;> rfl
  | cons c list ih =>
    obtain ⟨hc, hrest⟩ := List.forall_mem_cons.mp hlist
    rw [List.flatMap_cons, List.append_assoc, parseRecords_chunkAsBytes_append hc, ih hrest]
    cases parseRecords R.length R <;> rfl

theorem containerParse_containerAsBytes {list : List Chunk} (hlist : ∀ c ∈ list, c.ok = true) :
    containerParse (containerAsBytes list) = .ok list := by
  simpa [Except.map] using containerParse_containerAsBytes_append hlist []

theorem containerAsBytes_of_containerParse {B : List Byte} {list : List Chunk} (h : containerParse B = .ok list) :
    containerAsBytes list = B := by
  by_cases hsig : ∃ R, B = sig ++ R
  · obtain ⟨R, rfl⟩ := hsig
    rw [containerParse_sig_append] at h
    rw [containerAsBytes, flatMap_chunkAsBytes_of_parseRecords (Nat.le_refl _) h]
  · rw [containerParse_of_no_signature hsig] at h
    cases h

/-- Settles O41: each record is read back as its chunk, and each chunk read has the bytes of its record. -/
theorem containerRoundTrip : Obligations.ContainerRoundTrip :=
  ⟨fun _ _ h => ⟨containerAsBytes_of_containerParse h, List.all_eq_true.mp (containerParse_all_ok h)⟩,
    fun _ => containerParse_containerAsBytes⟩

/-- Settles O40: the valid records are read, and the loop ends at the record behind them. -/
theorem streamErrorIsThatOfTheFirstFailingRecord : Obligations.StreamErrorIsThatOfTheFirstFailingRecord := by
  intro list B e hlist hB h
  rw [containerParse_containerAsBytes_append hlist, parseRecords_of_error hB h]
  rfl

theorem containerAsBytes_append (list : List Chunk) (c : Chunk) :
    containerAsBytes (list ++ [c]) = containerAsBytes list ++ chunkAsBytes c := by
  simp [containerAsBytes]

theorem containerAsBytes_length (list : List Chunk) : (containerAsBytes list).length = 8 + (list.map fun c => 12 + c.data.length).sum := by
  have hrecords : (fun c => (chunkAsBytes c).length) = fun c => 12 + c.data.length := funext chunkAsBytes_length
  rw [containerAsBytes, List.length_append, List.length_flatMap, hrecords]
  rfl

/-- Settles O42: the records stand behind the signature in list order, and each has 12 bytes besides its payload. -/
theorem serializedStreamLayout : Obligations.SerializedStreamLayout :=
  ⟨rfl, containerAsBytes_append, containerAsBytes_length⟩

/-! ### The search by type -/

theorem typeMatch_iff (c : Chunk) (str : List Byte) : typeMatch c str = true ↔ str = quadBytes c.type := by
  unfold typeMatch
  split
  · next b0 b1 b2 b3 =>
    rw [ctEq_iff, eq_comm]
    exact ⟨congrArg quadBytes, quadBytes_inj (p := ⟨b0, b1, b2, b3⟩)⟩
  · next hlen => exact ⟨nofun, fun h => absurd h (hlen _ _ _ _)⟩

/-- The search answers the least index that matches (43_container R214). -/
theorem findFirst_eq_some_iff (list : List Chunk) (str : List Byte) (k : Nat) : findFirst list str = some k ↔
    (∃ c, list[k]? = some c ∧ typeMatch c str = true) ∧ ∀ j < k, ∀ c, list[j]? = some c → typeMatch c str = false := by
  rw [findFirst, List.findIdx?_eq_some_iff_getElem]
  constructor
  · rintro ⟨hk, hmatch, hleast⟩
    refine ⟨⟨_, List.getElem?_eq_getElem hk, hmatch⟩, fun j hj c hc => ?_⟩
    obtain ⟨-, rfl⟩ := List.getElem?_eq_some_iff.mp hc
    exact Bool.eq_false_iff.mpr (hleast j hj)
  · rintro ⟨⟨c, hc, hmatch⟩, hleast⟩
    obtain ⟨hk, rfl⟩ := List.getElem?_eq_some_iff.mp hc
    exact ⟨hk, hmatch, fun j hj => Bool.eq_false_iff.mp (hleast j hj _ (List.getElem?_eq_getElem (hj.trans hk)))⟩

theorem findFirst_eq_none_iff (list : List Chunk) (str : List Byte) : findFirst list str = none ↔ ∀ c ∈ list, typeMatch c str = false :=
  List.findIdx?_eq_none_iff

/-- Settles O43: the match compares four bytes, and the search is the library's first index. -/
theorem findFirstIsTheLeastMatch : Obligations.FindFirstIsTheLeastMatch :=
  ⟨typeMatch_iff, findFirst_eq_some_iff, findFirst_eq_none_iff⟩

/-- A match behind entries that do not match is the first one, at the index that counts them. -/
theorem findFirst_append_cons {pre post : List Chunk} {c : Chunk} {str : List Byte} (hc : typeMatch c str = true)
    (hpre : ∀ c' ∈ pre, typeMatch c' str = false) : findFirst (pre ++ c :: post) str = some pre.length := by
  refine (findFirst_eq_some_iff _ _ _).mpr ⟨⟨c, by simp, hc⟩, fun j hj c' hc' => hpre c' ?_⟩
  rw [List.getElem?_append_left hj] at hc'
  exact List.mem_of_getElem? hc'

/-! ### Loading, emptying and counting the list -/

/-- A count within a capacity such as MAX_CHUNKS is exact in RES (00_scope R12, 30_encoding R96). -/
theorem countWord_toNat {n : Nat} {max : Word} (h : n ≤ max.toNat) : (countWord n).toNat = n :=
  ofNat_toNat_of_le_maxPayload (h.trans (Nat.le_of_lt_succ max.isLt))

/-- On a stream, CO.PARSE comes down to the check of the list's length (43_container R202). -/
theorem exec_coParse_ok {s : State} {list : List Chunk} (hf : s.status.f = false) (h : containerParse (inputBytes s) = .ok list) :
    exec .coParse s = if list.length > s.params.maxChunks.toNat then takeFault s .capacityExceeded
      else respond (setCl s list) (countWord list.length) := by
  rw [exec, execCoParse, accept_of_running hf, h]

theorem exec_coParse_of_le_maxChunks {s : State} {list : List Chunk} (hf : s.status.f = false)
    (h : containerParse (inputBytes s) = .ok list) (hlen : list.length ≤ s.params.maxChunks.toNat) :
    exec .coParse s = .next { s with cl := list, res := countWord list.length, status := ⟨.ok, false⟩ } := by
  rw [exec_coParse_ok hf h, if_neg (Nat.not_lt.mpr hlen)]
  exact respond_of_running (s := setCl s list) hf _

theorem exec_coParse_of_maxChunks_lt {s : State} {list : List Chunk} (hf : s.status.f = false)
    (h : containerParse (inputBytes s) = .ok list) (hlen : s.params.maxChunks.toNat < list.length) :
    exec .coParse s = .next { s with status := ⟨.fault .capacityExceeded, true⟩ } :=
  (exec_coParse_ok hf h).trans (if_pos hlen)

theorem exec_coParse_error {s : State} {e : ErrorKind} (hf : s.status.f = false) (h : containerParse (inputBytes s) = .error e) :
    exec .coParse s = .next { s with res := 0#32, status := ⟨.error e, false⟩ } := by
  rw [exec, execCoParse, accept_of_running hf, h]
  exact raiseError_of_running hf e

theorem containerParse_ne_chunkNotFound {B : List Byte} {e : ErrorKind} (h : containerParse B = .error e) : e ≠ .chunkNotFound := by
  rcases containerParse_eq_error h with rfl | rfl | rfl | rfl <;> decide

/-- Settles O54: the command ends as the stream parser does on the input bytes, and then the length of the list decides. -/
theorem coParseReplacesTheList : Obligations.CoParseReplacesTheList :=
  ⟨rfl, fun _ _ hf h hlen => ⟨exec_coParse_of_le_maxChunks hf h hlen, countWord_toNat hlen⟩,
    fun _ _ => exec_coParse_of_maxChunks_lt, fun _ _ hf h => ⟨containerParse_ne_chunkNotFound h, exec_coParse_error hf h⟩⟩

/-- A command that only shows a number in RES. -/
theorem accept_respond {s : State} (hf : s.status.f = false) (v : Word) :
    accept s (respond s v) = .next { s with res := v, status := ⟨.ok, false⟩ } :=
  (accept_of_running hf _).trans (respond_of_running hf v)

/-- In a state that meets the invariant, the list is within MAX_CHUNKS (10_state R27). -/
theorem cl_length_le_of_inv {s : State} (hi : s.Inv) : s.cl.length ≤ s.params.maxChunks.toNat := by
  obtain ⟨-, -, -, hlen, -⟩ := hi
  exact hlen

/-- Settles O55: both commands are plain responses, and the invariant bounds the list. -/
theorem coClearAndCoCount : Obligations.CoClearAndCoCount :=
  ⟨rfl, rfl, fun s hf => ⟨(accept_of_running hf _).trans (respond_of_running (s := setCl s []) hf _), accept_respond hf _⟩,
    fun _ hi => countWord_toNat (cl_length_le_of_inv hi)⟩

/-! ### Moving a chunk into the list and out of it -/

theorem withWorkingChunk_of_some {s : State} {c : Chunk} (h : s.wc = some c) (k : Chunk → Result) : withWorkingChunk s k = k c := by
  simp [withWorkingChunk, h]

/-- With a chunk in WC, CO.APPEND comes down to the comparison of the list's length with MAX_CHUNKS (43_container R212). -/
theorem exec_coAppend {s : State} {c : Chunk} (hf : s.status.f = false) (hwc : s.wc = some c) :
    exec .coAppend s = if s.cl.length = s.params.maxChunks.toNat then takeFault s .capacityExceeded
      else respond (setWc (setCl s (s.cl ++ [c])) none) (countWord s.cl.length) :=
  (accept_of_running hf _).trans (withWorkingChunk_of_some hwc _)

/-- The second clause of O24 for one command: it reads WC, and WC is empty. -/
theorem exec_of_wc_empty {i : Instr} {s : State} (hr : (access i).readsWc = true) (hf : s.status.f = false) (hwc : s.wc = none) :
    exec i s = .next { s with status := ⟨.fault .noOperand, true⟩ } := by
  obtain ⟨-, habsent, -⟩ := absentOperandsFault
  exact habsent i s hf hr hwc

/-- Settles O56: WC is read first, then the length of the list decides. -/
theorem coAppendMovesTheChunkIn : Obligations.CoAppendMovesTheChunkIn := by
  refine ⟨rfl, fun s c hf hwc hlen => ?_, fun s c hf hwc hlen => ?_, fun s => exec_of_wc_empty rfl⟩
  · rw [exec_coAppend hf hwc, if_neg hlen]
    exact respond_of_running (s := setWc (setCl s (s.cl ++ [c])) none) hf _
  · exact (exec_coAppend hf hwc).trans (if_pos hlen)

/-- With a match at index `i`, CO.REMOVE responds with `i` after the move (43_container R215). -/
theorem exec_coRemove_some {s : State} {i : Nat} (hf : s.status.f = false) (h : findFirst s.cl (inputBytes s) = some i) :
    exec .coRemove s = .next
      { s with wc := s.cl[i]?, cl := s.cl.take i ++ s.cl.drop (i + 1), res := countWord i, status := ⟨.ok, false⟩ } := by
  rw [exec, execCoRemove, accept_of_running hf, h]
  exact respond_of_running (s := setCl (setWc s s.cl[i]?) (s.cl.take i ++ s.cl.drop (i + 1))) hf _

theorem exec_coRemove_none {s : State} (hf : s.status.f = false) (h : findFirst s.cl (inputBytes s) = none) :
    exec .coRemove s = .next { s with res := 0#32, status := ⟨.error .chunkNotFound, false⟩ } := by
  rw [exec, execCoRemove, accept_of_running hf, h]
  exact raiseError_of_running hf _

/-- Settles O57: the index of the first match cuts the list where the match stands. -/
theorem coRemoveMovesTheFirstMatchOut : Obligations.CoRemoveMovesTheFirstMatchOut := by
  refine ⟨rfl, fun s pre post c hf hcl hc hpre => ?_, fun s hf hnone => exec_coRemove_none hf ((findFirst_eq_none_iff _ _).mpr hnone)⟩
  have hfirst : findFirst s.cl (inputBytes s) = some pre.length := hcl ▸ findFirst_append_cons hc hpre
  have hentry : s.cl[pre.length]? = some c := by simp [hcl]
  have hrest : s.cl.take pre.length ++ s.cl.drop (pre.length + 1) = pre ++ post := by simp [hcl]
  rw [exec_coRemove_some hf hfirst, hentry, hrest]
  rfl

theorem exec_coFind {s : State} (hf : s.status.f = false) :
    exec .coFind s = .next { s with res := countWord ((findFirst s.cl (inputBytes s)).getD s.cl.length), status := ⟨.ok, false⟩ } :=
  accept_respond hf _

/-- Settles O58: RES is the index of the search, or the length of the list. -/
theorem coFindAnswersTheFirstMatch : Obligations.CoFindAnswersTheFirstMatch := by
  refine ⟨rfl, fun s pre post c hf hcl hc hpre => ?_, fun s hf hnone => ?_⟩
  · have hfirst : findFirst s.cl (inputBytes s) = some pre.length := hcl ▸ findFirst_append_cons hc hpre
    rw [exec_coFind hf, hfirst]
    rfl
  · rw [exec_coFind hf, (findFirst_eq_none_iff _ _).mpr hnone]
    rfl

/-! ### Serializing the list -/

/-- CO.BYTES is the whole-buffer write of the serialized list. -/
theorem exec_coBytes {s : State} (hf : s.status.f = false) :
    exec .coBytes s = emit s (containerAsBytes s.cl) (countWord s.cl.length) :=
  exec_of_outputOf_eq_some hf rfl

/-- Settles O59: the whole-buffer write succeeds exactly where the stream fits. -/
theorem coBytesSerializesTheList : Obligations.CoBytesSerializesTheList :=
  ⟨rfl, fun _ hf hfit => ⟨_, (exec_coBytes hf).trans (emit_of_fits hf _ hfit), rfl, bytes_ofBytes _, length_ofBytes _, read_ofBytes _⟩,
    fun _ hf hfit => (exec_coBytes hf).trans (emit_of_not_fits _ hfit)⟩

/-- Settles O60: the success is a whole-buffer write, which the copied buffer holds, and the list it serializes is within MAX_CHUNKS. -/
theorem coParseReadsBackWhatCoBytesWrote : Obligations.CoParseReadsBackWhatCoBytesWrote := by
  intro s t hi hf h ht
  have ⟨_, _, hcl, hlen, _⟩ := hi
  rcases emit_eq_next.mp ((exec_coBytes hf).symm.trans h) with ⟨-, rfl⟩ | ⟨-, rfl⟩
  · refine ⟨_, exec_coParse_of_le_maxChunks ht ?_ hlen, rfl, rfl, countWord_toNat hlen⟩
    rw [inputBytes_eq]
    exact (congrArg containerParse (bytes_ofBytes _)).trans (containerParse_containerAsBytes (List.all_eq_true.mp hcl))
  · cases ht

end Sys2Proof.Machine

/-!
PROOFS. The family 60_exceptions: commands and words after a protocol fault (R260), what a fault and an error change and which commands end in them (R241,
R250, R261), and that an outcome code is not sticky (R251).
-/

namespace Sys2Proof.Machine

/-! ### While F = 1 -/

theorem illegalCommand_of_faulted {s : State} (hf : s.status.f = true) : illegalCommand s = .next s :=
  accept_of_faulted hf _

/-- A command word after a fault is taken off the port and does nothing, whether it decodes or not. -/
theorem step_of_faulted {s : State} {w : CmdWord} {rest : List HostEvent} (hp : s.port = .command w :: rest) (hf : s.status.f = true) :
    step s = .next (setPort s rest) := by
  have hf' : (setPort s rest).status.f = true := hf
  cases hw : decode w with
  | instr i => exact (step_of_instr hp hw).trans (exec_of_faulted i hf')
  | reject why => exact (step_of_reject hp hw).trans (illegalCommand_of_faulted hf')

/-- Settles O13: the meaning of every command and the end of every illegal word begin with the refusal. -/
theorem commandsAreRefusedAfterAFault : Obligations.CommandsAreRefusedAfterAFault :=
  ⟨fun i _ => exec_of_faulted i, fun _ _ _ => step_of_faulted⟩

/-! ### Faults and errors -/

/-- Of the three ends, a fault alone sets F. -/
theorem Ends.fault_of_f {a : Access} {s t : State} (h : Ends a s (.next t)) (hf : s.status.f = false) (ht : t.status.f = true) :
    ∃ r ∈ a.faults, t = setStatus s ⟨.fault r, true⟩ := by
  cases h with
  | error => exact absurd ht (ne_true_of_eq_false hf)
  | fault hr => exact ⟨_, hr, rfl⟩
  | ok hu => exact absurd ht (ne_true_of_eq_false ((congrArg Status.f hu.status_eq).trans hf))

/-- Of the three ends, an error alone leaves the code of an error. -/
theorem Ends.error_of_ec {a : Access} {s t : State} {e : ErrorKind} (h : Ends a s (.next t)) (ht : t.status.ec = .error e) :
    e ∈ a.errors ∧ raiseError s e = .next t := by
  cases h with
  | error he => cases ht; exact ⟨he, rfl⟩
  | fault => cases ht
  | ok => cases ht

/-- Settles O14: an accepted command that leaves F = 1 ended in a fault of its row. -/
theorem aFaultChangesOnlyStatus : Obligations.AFaultChangesOnlyStatus := by
  intro i s t hf h ht
  have he : Ends (access i) s (.next t) := h ▸ exec_ends i hf
  exact he.fault_of_f hf ht

/-- Settles O15: an accepted command that leaves the code of an error raised an error of its row. -/
theorem anErrorChangesOnlyCodeAndResult : Obligations.AnErrorChangesOnlyCodeAndResult := by
  intro i s t e hf h ht
  have he : Ends (access i) s (.next t) := h ▸ exec_ends i hf
  obtain ⟨hmem, hraise⟩ := he.error_of_ec ht
  rw [raiseError_of_running hf] at hraise
  cases hraise
  exact ⟨hmem, rfl⟩

/-! ### Outcome codes -/

theorem accept_setEc {s : State} {c : Code} {k k' : Result} (hf : s.status.f = false) (hk : k' = k) :
    accept (setEc s c) k' = accept s k := by
  rw [accept_of_running hf, accept_of_running (s := setEc s c) hf, hk]

/-- No operation of a meaning reads the old outcome code, and each way a command ends writes its own over it: what an accepted command does is, by definition,
the same with every old code. -/
theorem exec_setEc {s : State} (i : Instr) (c : Code) (hf : s.status.f = false) : exec i (setEc s c) = exec i s := by
  cases i <;> exact accept_setEc hf rfl

/-- Settles O16: while F = 0, a state with another code is the state after a write of STATUS.EC. -/
theorem outcomeCodesDoNotInfluenceLaterCommands : Obligations.OutcomeCodesDoNotInfluenceLaterCommands := by
  intro i s c hf
  have hs : setEc s c = { s with status := ⟨c, false⟩ } := by rw [setEc, setStatus, hf]
  exact hs ▸ exec_setEc i c hf

end Sys2Proof.Machine

/-!
PROOFS. The family 70_reset_and_hazards: what the reset event leaves, and that no other move of the host clears STATUS.F or empties TR (R280).
-/

namespace Sys2Proof.Machine

/-! ### The reset event -/

theorem step_of_reset {s : State} {rest : List HostEvent} (h : s.port = .reset :: rest) : step s = resetEvent (setPort s rest) := by
  simp [step, h]

theorem statusWord_ok : statusWord ⟨.ok, false⟩ = 0#8 := by decide

/-- Settles O9: the step answers the values of `State.reset`, whose two buffers have no cells, with the capacities and the rest of the port. -/
theorem resetEventEmptiesEverything : Obligations.ResetEventEmptiesEverything :=
  fun _ _ hp => ⟨_, step_of_reset hp, rfl, rfl, rfl, rfl, statusWord_ok, rfl, rfl, rfl, fun _ => ⟨rfl, rfl⟩, rfl, rfl⟩

/-! ### What only the reset event does -/

/-- From `s` to `t`, a set STATUS.F stays set and an occupied TR stays occupied. -/
def KeepsFaultAndType (s t : State) : Prop :=
  (s.status.f = true → t.status.f = true) ∧ (s.tr ≠ none → t.tr ≠ none)

theorem KeepsFaultAndType.refl (s : State) : KeepsFaultAndType s s := ⟨id, id⟩

/-- Neither register depends on the port. -/
theorem KeepsFaultAndType.of_setPort {s t : State} {p : List HostEvent} (h : KeepsFaultAndType (setPort s p) t) : KeepsFaultAndType s t := h

/-- Of the seven forms of a write, one writes TR, and it writes a type there. -/
theorem Writes.tr_ne_none {a : Access} {s u : State} (h : Writes a s u) (htr : s.tr ≠ none) : u.tr ≠ none := by
  cases h with
  | type => exact Option.some_ne_none _
  | nothing | chunk | list | output | append | remove => exact htr

/-- No way a command ends writes F = 0 over F = 1, and none empties TR. -/
theorem Ends.keepsFaultAndType {a : Access} {s t : State} (h : Ends a s (.next t)) : KeepsFaultAndType s t := by
  cases h with
  | error => exact .refl s
  | fault => exact ⟨fun _ => rfl, id⟩
  | ok hu => exact ⟨fun hf => (congrArg Status.f hu.status_eq).trans hf, hu.tr_ne_none⟩

theorem exec_keepsFaultAndType {i : Instr} {s t : State} (h : exec i s = .next t) : KeepsFaultAndType s t := by
  rcases exec_eq_next h with ⟨-, rfl⟩ | ⟨-, he⟩
  · exact .refl _
  · exact he.keepsFaultAndType

theorem illegalCommand_keepsFaultAndType {s t : State} (h : illegalCommand s = .next t) : KeepsFaultAndType s t := by
  rcases accept_eq_next h with ⟨-, rfl⟩ | ⟨-, h⟩
  · exact .refl _
  · obtain rfl := takeFault_eq_next.mp h
    exact ⟨fun _ => rfl, id⟩

theorem hostWrite_keepsFaultAndType {B : List Byte} {s t : State} (h : hostWrite B s = .next t) : KeepsFaultAndType s t := by
  cases hfit : fits s.params.ibufCap B.length with
  | true => cases (hostWrite_of_fits hfit).symm.trans h; exact .refl s
  | false => cases (hostWrite_of_not_fits hfit).symm.trans h

/-- Every move of the host but the reset event keeps a set F and an occupied TR. -/
theorem step_reset_or_keepsFaultAndType {s t : State} (h : step s = .next t) :
    (∃ rest, s.port = .reset :: rest) ∨ KeepsFaultAndType s t := by
  match hp : s.port with
  | [] => cases (step_of_idle hp).symm.trans h; exact .inr (.refl s)
  | .command w :: rest =>
    cases hw : decode w with
    | instr i => exact .inr (exec_keepsFaultAndType ((step_of_instr hp hw).symm.trans h)).of_setPort
    | reject why => exact .inr (illegalCommand_keepsFaultAndType ((step_of_reject hp hw).symm.trans h)).of_setPort
  | .writeInput B :: rest => exact .inr (hostWrite_keepsFaultAndType ((step_of_writeInput hp).symm.trans h)).of_setPort
  | .readResponse :: rest => cases (step_of_readResponse hp).symm.trans h; exact .inr (.refl s)
  | .reset :: rest => exact .inl ⟨rest, rfl⟩

/-- Settles O10: a step that is no reset event keeps a set F and an occupied TR, so that one which loses either is a reset event. -/
theorem onlyResetClearsTheFaultOrEmptiesTr : Obligations.OnlyResetClearsTheFaultOrEmptiesTr := by
  intro s t h
  rcases step_reset_or_keepsFaultAndType h with hreset | ⟨hfault, htype⟩
  · exact ⟨fun _ _ => hreset, fun _ _ => hreset⟩
  · exact ⟨fun hs ht => absurd (hfault hs) (ne_true_of_eq_false ht), fun hs ht => absurd ht (htype hs)⟩

end Sys2Proof.Machine
